-- ==== Sys2Proof/Word.lean ====
section
/-! DEFINITION. The words of the RGD: bytes, 16-bit blocks and 32-bit bus words (00_scope.md R7, R9, R13). -/

namespace Sys2Proof

/-- A byte: a character (R13), the status byte, a signed 8-bit field (R33, R34). -/
abbrev Byte := BitVec 8

/-- One 16-bit block of a raw group (R7), or another 16-bit register. -/
abbrev Half := BitVec 16

/-- The 32-bit data of one host access (R7, "Host data bus width"). -/
abbrev Word := BitVec 32

end Sys2Proof
end

