-- ==== Sys2Proof/Config.lean ====
section
/-! DEFINITION. What 00_scope.md R7 fixes for every RGD and no register holds. The one open parameter, P_BASE
(R8), is no constant here: the model carries it in the host port of State, so that every statement about all states
is a statement about every P_BASE (log 2). -/

namespace Sys2Proof.Config

/-- Register window size in bytes (R7, R45). -/
abbrev windowSize : Nat := 0x200

/-- The width in bytes of the only defined access (R47). -/
abbrev accessBytes : Nat := 4

/-- The space that pads the buffers (R13). -/
def blank : Byte := 0x20#8

/-- The terminator of the buffers (R13). -/
def terminator : Byte := 0x00#8

/-- The signed 8-bit value -1: "unknown" for a mark (R33), "not yet available" for the clock (R34). -/
def minusOne : Byte := 0xFF#8

end Sys2Proof.Config
end

