-- ==== Sys2Proof/Syntax.lean ====
section
/-! DEFINITION. The instructions: the rows of opcode_table.json, whose meanings 44_dispatch_commands.md gives, and
the raw host accesses and command words that carry them (20_memory.md, 30_encoding.md). -/

namespace Sys2Proof

/-- One row of opcode_table.json each: the four commands, the reserved command words, and a read and a write of every
register and window of R48. `off` is a window offset (R46), `v` the written 32-bit value. -/
inductive Instr where
  /-- NOP: command word 0x0000_0000 (R133). -/
  | nop
  /-- INIT: command word 0x0000_0001 (R128). -/
  | init
  /-- SRESET: command word 0x0000_0002 (R131). -/
  | sreset
  /-- FEED: command word 0x0000_0003 (R121). -/
  | feed
  /-- RESERVED: every other command word; `w` is the word (R134). -/
  | reserved (w : Word)
  /-- RD_CMD: read of offset 0x000 (R135). -/
  | rdCmd
  /-- WR_CMD: write of `v` to offset 0x000 (R57). -/
  | wrCmd (v : Word)
  /-- RD_IN_STATUS: read of offset 0x004 (R135). -/
  | rdInStatus
  /-- WR_IN_STATUS: write of `v` to offset 0x004 (R136). -/
  | wrInStatus (v : Word)
  /-- RD_IN_BLKA: read of offset 0x008 (R135). -/
  | rdInBlkA
  /-- WR_IN_BLKA: write of `v` to offset 0x008 (R136). -/
  | wrInBlkA (v : Word)
  /-- RD_IN_BLKB: read of offset 0x00C (R135). -/
  | rdInBlkB
  /-- WR_IN_BLKB: write of `v` to offset 0x00C (R136). -/
  | wrInBlkB (v : Word)
  /-- RD_IN_BLKC: read of offset 0x010 (R135). -/
  | rdInBlkC
  /-- WR_IN_BLKC: write of `v` to offset 0x010 (R136). -/
  | wrInBlkC (v : Word)
  /-- RD_IN_BLKD: read of offset 0x014 (R135). -/
  | rdInBlkD
  /-- WR_IN_BLKD: write of `v` to offset 0x014 (R136). -/
  | wrInBlkD (v : Word)
  /-- RD_IN_ERR: read of offset 0x018 (R135). -/
  | rdInErr
  /-- WR_IN_ERR: write of `v` to offset 0x018 (R136). -/
  | wrInErr (v : Word)
  /-- RD_CTRL: read of offset 0x020 (R135). -/
  | rdCtrl
  /-- WR_CTRL: write of `v` to offset 0x020 (R136). -/
  | wrCtrl (v : Word)
  /-- RD_THR: read of offset 0x024 (R135). -/
  | rdThr
  /-- WR_THR: write of `v` to offset 0x024 (R136). -/
  | wrThr (v : Word)
  /-- RD_READY: read of offset 0x028 (R135). -/
  | rdReady
  /-- WR_READY: write of `v` to offset 0x028 (R137). -/
  | wrReady (v : Word)
  /-- RD_PI_STAT: read of offset 0x02C (R135). -/
  | rdPiStat
  /-- WR_PI_STAT: write of `v` to offset 0x02C (R136). -/
  | wrPiStat (v : Word)
  /-- RD_PTY_STAT: read of offset 0x030 (R135). -/
  | rdPtyStat
  /-- WR_PTY_STAT: write of `v` to offset 0x030 (R136). -/
  | wrPtyStat (v : Word)
  /-- RD_PS_STAT: read of offset 0x034 (R135). -/
  | rdPsStat
  /-- WR_PS_STAT: write of `v` to offset 0x034 (R136). -/
  | wrPsStat (v : Word)
  /-- RD_RT_STAT: read of offset 0x038 (R135). -/
  | rdRtStat
  /-- WR_RT_STAT: write of `v` to offset 0x038 (R136). -/
  | wrRtStat (v : Word)
  /-- RD_CT_STAT: read of offset 0x03C (R135). -/
  | rdCtStat
  /-- WR_CT_STAT: write of `v` to offset 0x03C (R136). -/
  | wrCtStat (v : Word)
  /-- RD_CLASS: read of offset 0x040 (R135). -/
  | rdClass
  /-- WR_CLASS: write of `v` to offset 0x040 (R136). -/
  | wrClass (v : Word)
  /-- RD_PS_WIN: read of offset 0x080..0x088 (R135). -/
  | rdPsWin (off : Nat)
  /-- WR_PS_WIN: write of `v` to offset 0x080..0x088 (R136). -/
  | wrPsWin (off : Nat) (v : Word)
  /-- RD_RTA_WIN: read of offset 0x100..0x140 (R135). -/
  | rdRtaWin (off : Nat)
  /-- WR_RTA_WIN: write of `v` to offset 0x100..0x140 (R136). -/
  | wrRtaWin (off : Nat) (v : Word)
  /-- RD_RTB_WIN: read of offset 0x180..0x1C0 (R135). -/
  | rdRtbWin (off : Nat)
  /-- WR_RTB_WIN: write of `v` to offset 0x180..0x1C0 (R136). -/
  | wrRtbWin (off : Nat) (v : Word)
  /-- RD_RESERVED: read of offset 0x01C, 0x044..0x07C, 0x08C..0x0FC, 0x144..0x17C, 0x1C4..0x1FC (R135). -/
  | rdReserved (off : Nat)
  /-- WR_RESERVED: write of `v` to offset 0x01C, 0x044..0x07C, 0x08C..0x0FC, 0x144..0x17C, 0x1C4..0x1FC (R136). -/
  | wrReserved (off : Nat) (v : Word)
  deriving DecidableEq, Repr

/-- The direction of a host access (R11): MemRead, or MemWrite with the value written. -/
inductive Dir where
  | read
  | write (v : Word)
  deriving DecidableEq, Repr

/-- A host access as the host issues it (R11, R46): its direction, its width in bytes, its host address.
The host may issue any width and any address; R47 says which accesses are defined. -/
structure HostAccess where
  dir : Dir
  bytes : Nat
  addr : Nat
  deriving DecidableEq, Repr

/-- What reaches the RGD from outside (R6, R153): a host access, or a hardware reset. -/
inductive HostEvent where
  | access (a : HostAccess)
  | hwReset
  deriving DecidableEq, Repr

/-- An encoded instruction (R80): a command row is encoded by the CMD write data, an access row by the direction and
the window offset, with the access width that R47 asks for. -/
inductive Encoding where
  | command (w : Word)
  | access (d : Dir) (bytes off : Nat)
  deriving DecidableEq, Repr

/-- Why an encoding decodes to no instruction. R47: "A model refuses it: it gives it no meaning and records the
refusal." -/
inductive Reject where
  /-- The access is not 32 bits wide (R47). Safe: the machine stops. -/
  | notWordAccess (bytes : Nat)
  /-- The offset is not a multiple of 4 (R47). Safe: the machine stops. -/
  | misaligned (off : Nat)
  /-- The offset is above 0x1FF, so it names no place in the window (R46). Safe: the machine stops. -/
  | beyondWindow (off : Nat)
  deriving DecidableEq, Repr

end Sys2Proof
end

