-- ==== Sys2Proof/WellFormed.lean ====
section
/-! DEFINITION. Which terms of Instr an encoding can give: the operand ranges of opcode_table.json and 20_memory.md
R48, written out here from the tables and not from the decoder. -/

namespace Sys2Proof

/-- A word offset in `first..last`: in range, and a multiple of 4 (R47, R48 "word offsets"). -/
def wordOffsetIn (first last off : Nat) : Bool :=
  decide (first ≤ off ∧ off ≤ last ∧ off % 4 = 0)

/-- The reserved word offsets of R48: 0x01C, 0x044..0x07C, 0x08C..0x0FC, 0x144..0x17C, 0x1C4..0x1FC. -/
def reservedOffset (off : Nat) : Bool :=
  wordOffsetIn 0x01C 0x01C off || wordOffsetIn 0x044 0x07C off || wordOffsetIn 0x08C 0x0FC off ||
    wordOffsetIn 0x144 0x17C off || wordOffsetIn 0x1C4 0x1FC off

/-- The reserved command words of R74: every OP in 0x04..0xFF, and every word with RSV not 0. -/
def reservedCommand (w : Word) : Bool :=
  decide (w.extractLsb' 8 24 ≠ 0#24) || decide (4 ≤ (w.extractLsb' 0 8).toNat)

/-- The operands of an instruction are ones that some encoding gives (R48, R74). -/
def Instr.wellFormed : Instr → Bool
  | .nop => true
  | .init => true
  | .sreset => true
  | .feed => true
  | .reserved w => reservedCommand w
  | .rdCmd => true
  | .wrCmd _ => true
  | .rdInStatus => true
  | .wrInStatus _ => true
  | .rdInBlkA => true
  | .wrInBlkA _ => true
  | .rdInBlkB => true
  | .wrInBlkB _ => true
  | .rdInBlkC => true
  | .wrInBlkC _ => true
  | .rdInBlkD => true
  | .wrInBlkD _ => true
  | .rdInErr => true
  | .wrInErr _ => true
  | .rdCtrl => true
  | .wrCtrl _ => true
  | .rdThr => true
  | .wrThr _ => true
  | .rdReady => true
  | .wrReady _ => true
  | .rdPiStat => true
  | .wrPiStat _ => true
  | .rdPtyStat => true
  | .wrPtyStat _ => true
  | .rdPsStat => true
  | .wrPsStat _ => true
  | .rdRtStat => true
  | .wrRtStat _ => true
  | .rdCtStat => true
  | .wrCtStat _ => true
  | .rdClass => true
  | .wrClass _ => true
  | .rdPsWin off => wordOffsetIn 0x080 0x088 off
  | .wrPsWin off _ => wordOffsetIn 0x080 0x088 off
  | .rdRtaWin off => wordOffsetIn 0x100 0x140 off
  | .wrRtaWin off _ => wordOffsetIn 0x100 0x140 off
  | .rdRtbWin off => wordOffsetIn 0x180 0x1C0 off
  | .wrRtbWin off _ => wordOffsetIn 0x180 0x1C0 off
  | .rdReserved off => reservedOffset off
  | .wrReserved off _ => reservedOffset off

end Sys2Proof
end

