-- ==== Sys2Proof/Decode.lean ====
section
/-! DEFINITION. The decoder, total on every encoding and rejecting by name, and after it the encoder. Command words:
30_encoding.md R72 to R74. Window offsets: 20_memory.md R47, R48. The host's table words: log 8. -/

namespace Sys2Proof

/-- The registers, windows and reserved space of R48. -/
inductive Reg where
  | cmd | inStatus | inBlkA | inBlkB | inBlkC | inBlkD | inErr | reserved | ctrl | thr | ready | piStat | ptyStat | psStat | rtStat | ctStat | cls | psWin | rtaWin | rtbWin
  deriving DecidableEq, Repr

/-- One row of the register map of R48: the byte offsets `first..last` of a register or window. -/
structure MapRow where
  first : Nat
  last : Nat
  reg : Reg
  deriving DecidableEq, Repr

/-- The register map, R48 row for row; a single register is listed at the offset of its one word. -/
def registerMap : List MapRow :=
  [⟨0x000, 0x000, .cmd⟩,
   ⟨0x004, 0x004, .inStatus⟩,
   ⟨0x008, 0x008, .inBlkA⟩,
   ⟨0x00C, 0x00C, .inBlkB⟩,
   ⟨0x010, 0x010, .inBlkC⟩,
   ⟨0x014, 0x014, .inBlkD⟩,
   ⟨0x018, 0x018, .inErr⟩,
   ⟨0x01C, 0x01C, .reserved⟩,
   ⟨0x020, 0x020, .ctrl⟩,
   ⟨0x024, 0x024, .thr⟩,
   ⟨0x028, 0x028, .ready⟩,
   ⟨0x02C, 0x02C, .piStat⟩,
   ⟨0x030, 0x030, .ptyStat⟩,
   ⟨0x034, 0x034, .psStat⟩,
   ⟨0x038, 0x038, .rtStat⟩,
   ⟨0x03C, 0x03C, .ctStat⟩,
   ⟨0x040, 0x040, .cls⟩,
   ⟨0x044, 0x07C, .reserved⟩,
   ⟨0x080, 0x08B, .psWin⟩,
   ⟨0x08C, 0x0FC, .reserved⟩,
   ⟨0x100, 0x143, .rtaWin⟩,
   ⟨0x144, 0x17C, .reserved⟩,
   ⟨0x180, 0x1C3, .rtbWin⟩,
   ⟨0x1C4, 0x1FC, .reserved⟩]

/-- What a word offset names. The rows cover every word offset of the window, so `none` means that the offset is not
one (it is above 0x1FF, or inside a register's word). -/
def regAt (off : Nat) : Option Reg :=
  (registerMap.find? fun r => decide (r.first ≤ off) && decide (off ≤ r.last)).map MapRow.reg

/-- The instruction that reads a register or window (opcode_table.json, BUS_READ rows). -/
def readInstr (off : Nat) : Reg → Instr
  | .cmd => .rdCmd
  | .inStatus => .rdInStatus
  | .inBlkA => .rdInBlkA
  | .inBlkB => .rdInBlkB
  | .inBlkC => .rdInBlkC
  | .inBlkD => .rdInBlkD
  | .inErr => .rdInErr
  | .reserved => .rdReserved off
  | .ctrl => .rdCtrl
  | .thr => .rdThr
  | .ready => .rdReady
  | .piStat => .rdPiStat
  | .ptyStat => .rdPtyStat
  | .psStat => .rdPsStat
  | .rtStat => .rdRtStat
  | .ctStat => .rdCtStat
  | .cls => .rdClass
  | .psWin => .rdPsWin off
  | .rtaWin => .rdRtaWin off
  | .rtbWin => .rdRtbWin off

/-- The instruction that writes a register or window (opcode_table.json, BUS_WRITE rows). -/
def writeInstr (off : Nat) (v : Word) : Reg → Instr
  | .cmd => .wrCmd v
  | .inStatus => .wrInStatus v
  | .inBlkA => .wrInBlkA v
  | .inBlkB => .wrInBlkB v
  | .inBlkC => .wrInBlkC v
  | .inBlkD => .wrInBlkD v
  | .inErr => .wrInErr v
  | .reserved => .wrReserved off v
  | .ctrl => .wrCtrl v
  | .thr => .wrThr v
  | .ready => .wrReady v
  | .piStat => .wrPiStat v
  | .ptyStat => .wrPtyStat v
  | .psStat => .wrPsStat v
  | .rtStat => .wrRtStat v
  | .ctStat => .wrCtStat v
  | .cls => .wrClass v
  | .psWin => .wrPsWin off v
  | .rtaWin => .wrRtaWin off v
  | .rtbWin => .wrRtbWin off v

/-- The commands of 30_encoding.md R73, and the reserved words of R74. -/
inductive Command where
  | nop | init | sreset | feed
  | reserved (w : Word)
  deriving DecidableEq, Repr

/-- The row of opcode_table.json for a command. -/
def Command.toInstr : Command → Instr
  | .nop => .nop
  | .init => .init
  | .sreset => .sreset
  | .feed => .feed
  | .reserved w => .reserved w

/-- R72 and R73: a word runs its row's command only when RSV (bits 31:8) is 0; R74: any other word is reserved. -/
def decodeCommand (w : Word) : Command :=
  if w.extractLsb' 8 24 = 0#24 then
    match (w.extractLsb' 0 8).toNat with
    | 0x00 => .nop
    | 0x01 => .init
    | 0x02 => .sreset
    | 0x03 => .feed
    | _ => .reserved w
  else .reserved w

/-- R47: the only defined access is 32 bits wide, at an offset that is a multiple of 4. R48: what it reaches. -/
def decodeAccess (d : Dir) (bytes off : Nat) : Except Reject Instr :=
  if bytes ≠ Config.accessBytes then .error (.notWordAccess bytes)
  else if off % 4 ≠ 0 then .error (.misaligned off)
  else
    match regAt off with
    | none => .error (.beyondWindow off)
    | some r =>
      match d with
      | .read => .ok (readInstr off r)
      | .write v => .ok (writeInstr off v r)

/-- The decoder, total on every encoding. -/
def decode : Encoding → Except Reject Instr
  | .command w => .ok (decodeCommand w).toInstr
  | .access d bytes off => decodeAccess d bytes off

/-- The encoding of an instruction: the words of R73 and the offsets of R48, written from the tables. -/
def encode : Instr → Encoding
  | .nop => .command 0x00000000#32
  | .init => .command 0x00000001#32
  | .sreset => .command 0x00000002#32
  | .feed => .command 0x00000003#32
  | .reserved w => .command w
  | .rdCmd => .access .read 4 0x000
  | .wrCmd v => .access (.write v) 4 0x000
  | .rdInStatus => .access .read 4 0x004
  | .wrInStatus v => .access (.write v) 4 0x004
  | .rdInBlkA => .access .read 4 0x008
  | .wrInBlkA v => .access (.write v) 4 0x008
  | .rdInBlkB => .access .read 4 0x00C
  | .wrInBlkB v => .access (.write v) 4 0x00C
  | .rdInBlkC => .access .read 4 0x010
  | .wrInBlkC v => .access (.write v) 4 0x010
  | .rdInBlkD => .access .read 4 0x014
  | .wrInBlkD v => .access (.write v) 4 0x014
  | .rdInErr => .access .read 4 0x018
  | .wrInErr v => .access (.write v) 4 0x018
  | .rdReserved off => .access .read 4 off
  | .wrReserved off v => .access (.write v) 4 off
  | .rdCtrl => .access .read 4 0x020
  | .wrCtrl v => .access (.write v) 4 0x020
  | .rdThr => .access .read 4 0x024
  | .wrThr v => .access (.write v) 4 0x024
  | .rdReady => .access .read 4 0x028
  | .wrReady v => .access (.write v) 4 0x028
  | .rdPiStat => .access .read 4 0x02C
  | .wrPiStat v => .access (.write v) 4 0x02C
  | .rdPtyStat => .access .read 4 0x030
  | .wrPtyStat v => .access (.write v) 4 0x030
  | .rdPsStat => .access .read 4 0x034
  | .wrPsStat v => .access (.write v) 4 0x034
  | .rdRtStat => .access .read 4 0x038
  | .wrRtStat v => .access (.write v) 4 0x038
  | .rdCtStat => .access .read 4 0x03C
  | .wrCtStat v => .access (.write v) 4 0x03C
  | .rdClass => .access .read 4 0x040
  | .wrClass v => .access (.write v) 4 0x040
  | .rdPsWin off => .access .read 4 off
  | .wrPsWin off v => .access (.write v) 4 off
  | .rdRtaWin off => .access .read 4 off
  | .wrRtaWin off v => .access (.write v) 4 off
  | .rdRtbWin off => .access .read 4 off
  | .wrRtbWin off v => .access (.write v) 4 off

/-- A word of opcode_table.json as an encoding (log 8). A 32-bit word is a command word (the CMD rows). Any other word
is a host access: bits 8:0 the window offset, bit 9 the direction (0 read, 1 write), bits 15:10 more offset bits, which
name no place in the window unless they are 0, bits 47:16 the written value. The table itself gives an access row its
offset and leaves the direction to the row's format (R80), so its BUS_READ and BUS_WRITE rows have the same bits. -/
def tableEncoding (nbits w : Nat) : Encoding :=
  if nbits = 32 then .command (BitVec.ofNat 32 w)
  else
    let off := w % 2 ^ 9 + 2 ^ 9 * (w / 2 ^ 10 % 2 ^ 6)
    if w.testBit 9 then .access (.write (BitVec.ofNat 32 (w / 2 ^ 16))) Config.accessBytes off
    else .access .read Config.accessBytes off

/-- The instruction the decoder reads from a word of opcode_table.json. -/
def decodeTableWord (nbits w : Nat) : Option Instr :=
  (decode (tableEncoding nbits w)).toOption

end Sys2Proof
end

