-- ==== Sys2Proof/Machine/State.lean ====
section
/-! DEFINITION. The state: the RGD's elements, the table of 10_state.md R17 and nothing else, and beside them the host
port, the model's own account of the outside (log 1, 2, 6). Groups are the groups of R44. -/

namespace Sys2Proof.Machine

/-- The input registers (R18, R19, R20): the raw group the host loads. -/
structure Inputs where
  status : BitVec 8
  blkA : Half
  blkB : Half
  blkC : Half
  blkD : Half
  err : BitVec 16
  deriving DecidableEq, Repr

/-- The PI group (R44): PI_CODE (R23), PI_SHADOW (R25), PI_AVAIL (R24). -/
structure PiGroup where
  code : BitVec 16
  shadow : BitVec 16
  avail : Bool
  deriving DecidableEq, Repr

/-- The PS group (R44): PS_BUF (R27), PS_SHADOW (R29), PS_AVAIL (R28). -/
structure PsGroup where
  buf : Vector Byte 9
  shadow : Vector Byte 8
  avail : Bool
  deriving DecidableEq, Repr

/-- The two values of the selector (R30, R32): `A` is 0, the buffer "A"; `B` is 1, the buffer "B". -/
inductive RtSel where
  | A | B
  deriving DecidableEq, Repr

/-- The RT group (R44): RT_BUF[0] and RT_BUF[1] (R30), RT_HWM[0] and RT_HWM[1] (R33, signed), RT_SEL (R32). -/
structure RtGroup where
  buf0 : Vector Byte 65
  buf1 : Vector Byte 65
  hwm0 : BitVec 8
  hwm1 : BitVec 8
  sel : RtSel
  deriving DecidableEq, Repr

/-- The clock group (R44): CT_HOUR and CT_MIN (R34, signed). -/
structure CtGroup where
  hour : BitVec 8
  min : BitVec 8
  deriving DecidableEq, Repr

/-- The RGD's state: "exactly the elements" of the table of R17. CMD stores nothing (R57). -/
structure Rgd where
  inp : Inputs
  ctrl : BitVec 19
  thr : BitVec 10
  pi : PiGroup
  pty : BitVec 5
  ps : PsGroup
  rt : RtGroup
  ct : CtGroup
  ready : BitVec 6
  cls : BitVec 16
  deriving DecidableEq, Repr

/-- The host port, the model's own fields. `pBaseBlock` is P_BASE / 0x200 (R8: P_BASE is a multiple of 0x200; log 2).
`pending` is what the outside has issued and the RGD has not taken, oldest first (R60; log 1). `returned` is what reads
have returned to the host (R135), newest first (log 6). -/
structure HostPort where
  pBaseBlock : Nat
  pending : List HostEvent
  returned : List Word
  deriving DecidableEq, Repr

/-- The machine: the RGD, and the host port it is reached through. -/
structure State where
  rgd : Rgd
  host : HostPort
  deriving DecidableEq, Repr

/-- The faults of the RGD: there is none. R141: "The RGD raises no synchronous exception."; 93_implementation_defined.md:
"No behaviour of the RGD is modelled as `fault` or `stuck`." (log 13). -/
inductive Fault where
  deriving DecidableEq, Repr

/-- The refusals of a step: accesses outside the interface contract (R47), and accesses that do not reach the RGD. -/
inductive Refusal where
  /-- An instruction without a meaning; raised by an arm of exec, of which there is none. Safe: the machine stops. -/
  | notModelled (mnemonic : String)
  /-- A host access to an address outside P_BASE .. P_BASE + 0x1FF (R45), so none of the RGD's; raised by the fetch.
  Safe: the machine stops (log 4). -/
  | outsideWindow (addr : Nat)
  /-- A host access that R47 leaves without a meaning; raised by the fetch. Safe: the machine stops. -/
  | contract (why : Reject)
  deriving DecidableEq, Repr

/-- What one step of this machine ends in. -/
abbrev Result := Host.Outcome State Fault Refusal

/-- InitialPI (R43). -/
def PiGroup.initial : PiGroup := { code := 0x0000#16, shadow := 0x0000#16, avail := false }

/-- InitialPS (R43): PS_BUF is 8 spaces and the terminator. -/
def PsGroup.initial : PsGroup where
  buf := (Vector.replicate 9 Config.blank).setIfInBounds 8 Config.terminator
  shadow := Vector.replicate 8 Config.blank
  avail := false

/-- One RT buffer of InitialRT (R43): 64 spaces and the terminator. -/
def RtGroup.blankBuf : Vector Byte 65 :=
  (Vector.replicate 65 Config.blank).setIfInBounds 64 Config.terminator

/-- InitialRT (R43). -/
def RtGroup.initial : RtGroup where
  buf0 := RtGroup.blankBuf
  buf1 := RtGroup.blankBuf
  hwm0 := Config.minusOne
  hwm1 := Config.minusOne
  sel := .A

/-- InitialCT (R43). -/
def CtGroup.initial : CtGroup := { hour := Config.minusOne, min := Config.minusOne }

/-- The input registers after hardware reset (R153). -/
def Inputs.reset : Inputs where
  status := 0x00#8
  blkA := 0x0000#16
  blkB := 0x0000#16
  blkC := 0x0000#16
  blkD := 0x0000#16
  err := 0x0000#16

/-- HW_RESET (R153): every element at its reset value of R17. -/
def Rgd.reset : Rgd where
  inp := Inputs.reset
  ctrl := 0x20005#19
  thr := 0x000#10
  pi := PiGroup.initial
  pty := 0#5
  ps := PsGroup.initial
  rt := RtGroup.initial
  ct := CtGroup.initial
  ready := 0b000000#6
  cls := 0x0000#16

/-- The machine right after hardware reset (R153, R155: it "waits for host accesses"). The host port's values are the
model's (log 1, 2, 6): no host access issued, nothing returned, P_BASE 0. -/
def State.reset : State where
  rgd := Rgd.reset
  host := { pBaseBlock := 0, pending := [], returned := [] }

end Sys2Proof.Machine
end

