-- ==== Sys2Proof/Machine/Operands.lean ====
section
/-! DEFINITION. The fields of the raw group and of the configuration registers: the classifier (40_classifier.md), the
values assembled from the blocks (30_encoding.md R64 to R71), CTRL (R21) and THR (R22). All are pure (R84). -/

namespace Sys2Proof.Machine

/-- The four blocks of a group (R7). -/
inductive Block where
  | A | B | C | D
  deriving DecidableEq, Repr

/-- The two group layouts (R82). -/
inductive Version where
  | A | B
  deriving DecidableEq, Repr

/-- `error_level(blk)` (R81). -/
def errorLevel (g : Inputs) : Block → BitVec 2
  | .A => g.err.extractLsb' 6 2
  | .B => g.err.extractLsb' 4 2
  | .C => g.err.extractLsb' 2 2
  | .D => g.err.extractLsb' 0 2

/-- `protocol_version()` (R82): bit 4 of the status byte. -/
def protocolVersion (g : Inputs) : Version :=
  if g.status.getLsbD 4 then .B else .A

/-- `group_type()` (R83): the top 4 bits of block B. -/
def groupType (g : Inputs) : BitVec 4 := g.blkB.extractLsb' 12 4

/-- `accept(lvl, thr)` (R85): an unsigned compare. -/
def accept (lvl thr : BitVec 2) : Bool := lvl.ule thr

/-- `pty_code` (R71). -/
def ptyCode (g : Inputs) : BitVec 5 := g.blkB.extractLsb' 5 5

/-- `ps_seg` (R71). -/
def psSegment (g : Inputs) : BitVec 2 := g.blkB.extractLsb' 0 2

/-- `rt_sel` (R71): bit 4 of block B. -/
def rtSelector (g : Inputs) : RtSel := if g.blkB.getLsbD 4 then .B else .A

/-- `rt_seg` (R71). -/
def rtSegment (g : Inputs) : BitVec 4 := g.blkB.extractLsb' 0 4

/-- `raw_hour()` (R71, R116): bit 0 of block C above bits 15:12 of block D. -/
def rawHour (g : Inputs) : BitVec 5 := g.blkC.extractLsb' 0 1 ++ g.blkD.extractLsb' 12 4

/-- `minute` (R71). -/
def minuteField (g : Inputs) : BitVec 6 := g.blkD.extractLsb' 6 6

/-- `offset()` (R71, R117): sign bit 5 and magnitude 4:0 of block D, so a sign with magnitude 0 is 0. -/
def offsetField (g : Inputs) : Int :=
  if g.blkD.getLsbD 5 then -((g.blkD.extractLsb' 0 5).toNat : Int) else ((g.blkD.extractLsb' 0 5).toNat : Int)

/-- The first character of a block, its high byte (R51, R69). -/
def charHigh (w : Half) : Byte := w.extractLsb' 8 8

/-- The second character of a block, its low byte (R51, R69). -/
def charLow (w : Half) : Byte := w.extractLsb' 0 8

/-- CTRL.GT_EN[t] (R21). -/
def Rgd.gtEn (r : Rgd) (t : BitVec 4) : Bool := r.ctrl.getLsbD t.toNat

/-- CTRL.PTY_EN (R21). -/
def Rgd.ptyEn (r : Rgd) : Bool := r.ctrl.getLsbD 16

/-- CTRL.SR_PS (R21). -/
def Rgd.srPs (r : Rgd) : Bool := r.ctrl.getLsbD 17

/-- CTRL.CT_MINCHK (R21). -/
def Rgd.ctMinchk (r : Rgd) : Bool := r.ctrl.getLsbD 18

/-- THR.THR_PI (R22). -/
def Rgd.thrPi (r : Rgd) : BitVec 2 := r.thr.extractLsb' 0 2

/-- THR.THR_GT (R22). -/
def Rgd.thrGt (r : Rgd) : BitVec 2 := r.thr.extractLsb' 2 2

/-- THR.THR_PS (R22). -/
def Rgd.thrPs (r : Rgd) : BitVec 2 := r.thr.extractLsb' 4 2

/-- THR.THR_RT (R22). -/
def Rgd.thrRt (r : Rgd) : BitVec 2 := r.thr.extractLsb' 6 2

/-- THR.THR_CT (R22). -/
def Rgd.thrCt (r : Rgd) : BitVec 2 := r.thr.extractLsb' 8 2

end Sys2Proof.Machine
end

