-- ==== Sys2Proof/Machine/Flags.lean ====
section
/-! DEFINITION. The RGD's flags: the ready bitmask READY (R35, R56) and the classification word CLASS (R36, R121). The
availability flags PI_AVAIL and PS_AVAIL are set by their extractors (R90, R100). -/

namespace Sys2Proof.Machine

/-- The bits of READY that extractors set (R35); bit 5 is never set. -/
inductive ReadyBit where
  | pi | pty | ps | rt | ct
  deriving DecidableEq, Repr

/-- The bit's position (R35). -/
def ReadyBit.index : ReadyBit → Nat
  | .pi => 0
  | .pty => 1
  | .ps => 2
  | .rt => 3
  | .ct => 4

/-- `READY.<bit> <- 1` (R35: "Extractors only set bits"). -/
def Rgd.raise (b : ReadyBit) (r : Rgd) : Rgd :=
  { r with ready := r.ready ||| (1#6 <<< b.index) }

/-- Write 1 to clear: `READY <- READY AND NOT v[5:0]` (R56). -/
def Rgd.clearReady (v : Word) (r : Rgd) : Rgd :=
  { r with ready := r.ready &&& ~~~(v.extractLsb' 0 6) }

/-- The version as CLASS and the status byte code it (R36, R82): 0 is A, 1 is B. -/
def Version.bit : Version → BitVec 1
  | .A => 0#1
  | .B => 1#1

/-- The classification a FEED records (R36, R121), from bit 15 down: E_D, E_C, E_B, E_A, GT, two reserved bits that are
0, VALID which is 1, VER. -/
def classWord (g : Inputs) : BitVec 16 :=
  errorLevel g .D ++ errorLevel g .C ++ errorLevel g .B ++ errorLevel g .A ++ groupType g ++ 0b00#2 ++ 1#1 ++
    (protocolVersion g).bit

end Sys2Proof.Machine
end

