-- ==== Sys2Proof/Machine/Ops.lean ====
section
/-! DEFINITION. The named operations over the state: characters into buffers (R51), the high-water mark (R108), the
groups of the initial record (R43, R44), hardware reset (R153), the buffer windows (R49, R50), a read's answer to the
host (R135) and the fetch of a host access (R46, R47). The RGD takes no exception and returns from none (R141, R144,
R145: "A model has no trap step"), so there is no operation for either. -/

namespace Sys2Proof.Machine

/-- Byte `i` of a byte array; 0x00 where the array has no such byte, as R49 pads the windows. -/
def byteAt {n : Nat} (buf : Vector Byte n) (i : Nat) : Byte := buf[i]?.getD 0x00#8

/-- The two characters of a block go to indices `i` and `i + 1`, high byte first (R51). -/
def writeChars {n : Nat} (buf : Vector Byte n) (i : Nat) (w : Half) : Vector Byte n :=
  (buf.setIfInBounds i (charHigh w)).setIfInBounds (i + 1) (charLow w)

/-- `mark_raise` on a mark (R108): the larger of the mark, read as signed, and the end offset `e`. -/
def markRaise (mark : BitVec 8) (e : Nat) : BitVec 8 := BitVec.ofInt 8 (max mark.toInt (e : Int))

/-- RT_BUF[s] (R30). -/
def RtGroup.buf (g : RtGroup) : RtSel → Vector Byte 65
  | .A => g.buf0
  | .B => g.buf1

/-- RT_HWM[s] (R33). -/
def RtGroup.hwm (g : RtGroup) : RtSel → BitVec 8
  | .A => g.hwm0
  | .B => g.hwm1

/-- `RT_BUF[s] <- b` and `RT_HWM[s] <- m`; the other buffer and its mark stay (R102). -/
def RtGroup.setHalf (g : RtGroup) (s : RtSel) (b : Vector Byte 65) (m : BitVec 8) : RtGroup :=
  match s with
  | .A => { g with buf0 := b, hwm0 := m }
  | .B => { g with buf1 := b, hwm1 := m }

/-- The selector as RT_STAT shows it (R30, R48). -/
def RtSel.bit : RtSel → BitVec 1
  | .A => 0#1
  | .B => 1#1

/-- InitialPI (R43). -/
def Rgd.initialPI (r : Rgd) : Rgd := { r with pi := PiGroup.initial }

/-- InitialPTY (R43). -/
def Rgd.initialPTY (r : Rgd) : Rgd := { r with pty := 0#5 }

/-- InitialPS (R43). -/
def Rgd.initialPS (r : Rgd) : Rgd := { r with ps := PsGroup.initial }

/-- InitialRT (R43): both buffers, both marks and RT_SEL. -/
def Rgd.initialRT (r : Rgd) : Rgd := { r with rt := RtGroup.initial }

/-- InitialCT (R43). -/
def Rgd.initialCT (r : Rgd) : Rgd := { r with ct := CtGroup.initial }

/-- InitialRDY (R43). -/
def Rgd.initialRDY (r : Rgd) : Rgd := { r with ready := 0b000000#6 }

/-- InitialRecord (R43), in its order. -/
def Rgd.initialRecord (r : Rgd) : Rgd :=
  r.initialPI.initialPTY.initialPS.initialRT.initialCT.initialRDY

/-- Hardware reset (R153): every element of the RGD at its reset value. The host's side is not the RGD's, and stays
(log 7). -/
def hwReset (s : State) : State := { s with rgd := Rgd.reset }

/-- A 32-bit word from the four bytes at offsets o, o+1, o+2, o+3: little-endian (R50). -/
def wordOfBytes (b0 b1 b2 b3 : Byte) : Word := b3 ++ b2 ++ b1 ++ b0

/-- The word that starts at byte `j` of a buffer window (R49, R50). -/
def windowWord {n : Nat} (buf : Vector Byte n) (j : Nat) : Word :=
  wordOfBytes (byteAt buf j) (byteAt buf (j + 1)) (byteAt buf (j + 2)) (byteAt buf (j + 3))

/-- Window offset of PS_WIN (R48). -/
def psWinBase : Nat := 0x080

/-- Window offset of RTA_WIN (R48). -/
def rtaWinBase : Nat := 0x100

/-- Window offset of RTB_WIN (R48). -/
def rtbWinBase : Nat := 0x180

/-- A read's end (R135, R52): the value goes to the host, and nothing of the RGD changes. -/
def State.answer (s : State) (v : Word) : State :=
  { s with host := { s.host with returned := v :: s.host.returned } }

/-- A command or a register write: it changes the RGD and completes within its access (R5, R57). -/
def State.onRgd (s : State) (f : Rgd → Rgd) : State := { s with rgd := f s.rgd }

/-- P_BASE (R8), a multiple of 0x200. -/
abbrev HostPort.pBase (h : HostPort) : Nat := Config.windowSize * h.pBaseBlock

/-- R46: a host access to address `a` in the window reaches offset `a - P_BASE`, at most 0x1FF. -/
def HostPort.windowOffset (h : HostPort) (addr : Nat) : Option Nat :=
  if h.pBase ≤ addr ∧ addr < h.pBase + Config.windowSize then some (addr - h.pBase) else none

/-- The instruction a host access carries (R46, R47, R48), or why it carries none. -/
def fetch (h : HostPort) (a : HostAccess) : Except Refusal Instr :=
  match h.windowOffset a.addr with
  | none => .error (.outsideWindow a.addr)
  | some off =>
    match decode (.access a.dir a.bytes off) with
    | .ok i => .ok i
    | .error why => .error (.contract why)

/-- The host access that carries an encoded instruction (R11, R57): a command word is a write to CMD, offset 0x000. -/
def HostPort.accessOf (h : HostPort) : Encoding → HostAccess
  | .command w => { dir := .write w, bytes := Config.accessBytes, addr := h.pBase }
  | .access d bytes off => { dir := d, bytes := bytes, addr := h.pBase + off }

end Sys2Proof.Machine
end

