-- ==== Sys2Proof/Machine/Clock.lean ====
section
/-! DEFINITION. The clock extractor and the time-offset arithmetic unit, 43_clock.md. -/

namespace Sys2Proof.Machine

/-- `while h < 0: h <- h + 24` (R118), with a bound on the number of turns. -/
def addDays : Nat → Int → Int
  | 0, h => h
  | n + 1, h => if h < 0 then addDays n (h + 24) else h

/-- `while h > 23: h <- h - 24` (R118), with a bound on the number of turns. -/
def subDays : Nat → Int → Int
  | 0, h => h
  | n + 1, h => if 23 < h then subDays n (h - 24) else h

/-- `ofs_normalize(r, o)` (R118): the two loops, one after the other. A loop that starts at `h` ends within `|h|` turns,
since each turn moves it by 24 (log 11). -/
def ofsNormalize (r o : Int) : Int :=
  let h := r + o
  let h := addDays h.natAbs h
  subDays h.natAbs h

/-- CT_EXTRACT (R112): blocks C and D both accepted (R113), the minute check where CTRL.CT_MINCHK asks for it (R114),
then CT_HOUR, CT_MIN and RDY_CT together (R115). -/
def ctExtract (r : Rgd) : Rgd :=
  if accept (errorLevel r.inp .C) r.thrCt = false then r
  else if accept (errorLevel r.inp .D) r.thrCt = false then r
  else if r.ctMinchk = true ∧ 59 < (minuteField r.inp).toNat then r
  else
    { r with
      ct :=
        { hour := BitVec.ofInt 8 (ofsNormalize ((rawHour r.inp).toNat : Int) (offsetField r.inp))
          min := (minuteField r.inp).setWidth 8 } }.raise .ct

end Sys2Proof.Machine
end

