-- ==== Sys2Proof/Machine/Pi.lean ====
section
/-! DEFINITION. The identification extractor, 41_pi_pty.md section 1. -/

namespace Sys2Proof.Machine

/-- `pi_candidate()` (R89): version A takes block A; version B takes block C only where its level is lower. -/
def piCandidate (g : Inputs) : Half × BitVec 2 :=
  match protocolVersion g with
  | .A => (g.blkA, errorLevel g .A)
  | .B =>
    if (errorLevel g .C).ult (errorLevel g .A) then (g.blkC, errorLevel g .C)
    else (g.blkA, errorLevel g .A)

/-- `pi_update(v)` (R90): a value is new where none was accepted before, or where it differs from the shadow. -/
def piUpdate (v : Half) (r : Rgd) : Rgd :=
  if r.pi.avail = false ∨ v ≠ r.pi.shadow then
    { r with pi := { code := v, shadow := v, avail := true } }.raise .pi
  else r

/-- PI_EXTRACT (R88); a rejected candidate writes nothing (R91). -/
def piExtract (r : Rgd) : Rgd :=
  if accept (piCandidate r.inp).2 r.thrPi then piUpdate (piCandidate r.inp).1 r else r

end Sys2Proof.Machine
end

