-- ==== Sys2Proof/Machine/Ps.lean ====
section
/-! DEFINITION. The station-name extractor, 42_ps_rt.md section 1. -/

namespace Sys2Proof.Machine

/-- The 8 characters PS_BUF[0..7] (R27), without the terminator. -/
def PsGroup.chars (g : PsGroup) : Vector Byte 8 :=
  #v[byteAt g.buf 0, byteAt g.buf 1, byteAt g.buf 2, byteAt g.buf 3,
     byteAt g.buf 4, byteAt g.buf 5, byteAt g.buf 6, byteAt g.buf 7]

/-- `ps_diff()` (R100): where any of the 8 characters differs from its shadow, set RDY_PS and PS_AVAIL and copy all 8
characters to the shadow. -/
def psDiff (r : Rgd) : Rgd :=
  if r.ps.chars ≠ r.ps.shadow then
    { r with ps := { r.ps with shadow := r.ps.chars, avail := true } }.raise .ps
  else r

/-- The character write of PS_EXTRACT (R98), gated on block D (R99). -/
def psWrite (r : Rgd) : Rgd :=
  if accept (errorLevel r.inp .D) r.thrPs then
    { r with ps := { r.ps with buf := writeChars r.ps.buf (2 * (psSegment r.inp).toNat) r.inp.blkD } }
  else r

/-- PS_EXTRACT (R98): the change test runs always (R99). -/
def psExtract (r : Rgd) : Rgd := psDiff (psWrite r)

end Sys2Proof.Machine
end

