-- ==== Sys2Proof/Machine/Pty.lean ====
section
/-! DEFINITION. The program-type extractor, 41_pi_pty.md section 2, and its stage in a FEED (R122). -/

namespace Sys2Proof.Machine

/-- PTY_EXTRACT (R95): a code of 0 never overwrites PTY (R96). -/
def ptyExtract (r : Rgd) : Rgd :=
  if ptyCode r.inp ≠ 0#5 ∧ ptyCode r.inp ≠ r.pty then
    { r with pty := ptyCode r.inp }.raise .pty
  else r

/-- The PTY stage of a FEED (R122): no gate but CTRL.PTY_EN. -/
def ptyStage (r : Rgd) : Rgd := if r.ptyEn then ptyExtract r else r

end Sys2Proof.Machine
end

