-- ==== Sys2Proof/Machine/Rt.lean ====
section
/-! DEFINITION. The radio-text extractor, 42_ps_rt.md section 2. -/

namespace Sys2Proof.Machine

/-- What an accepted half does (R103, R104, R105): its block's two characters go to indices `i` and `i + 1` of buffer
`s`, the mark is raised to `i + 2` (R108), and RDY_RT is set, with no compare (R106). -/
def rtWrite (s : RtSel) (i : Nat) (w : Half) (r : Rgd) : Rgd :=
  { r with rt := r.rt.setHalf s (writeChars (r.rt.buf s) i w) (markRaise (r.rt.hwm s) (i + 2)) }.raise .rt

/-- `rt_half_C_A(s, seg)` (R103). -/
def rtHalfCA (s : RtSel) (seg : Nat) (r : Rgd) : Rgd :=
  if accept (errorLevel r.inp .C) r.thrRt then rtWrite s (4 * seg) r.inp.blkC r else r

/-- `rt_half_D_A(s, seg)` (R104), gated apart from the block C half. -/
def rtHalfDA (s : RtSel) (seg : Nat) (r : Rgd) : Rgd :=
  if accept (errorLevel r.inp .D) r.thrRt then rtWrite s (4 * seg + 2) r.inp.blkD r else r

/-- `rt_half_D_B(s, seg)` (R105), the only half of a version B group. -/
def rtHalfDB (s : RtSel) (seg : Nat) (r : Rgd) : Rgd :=
  if accept (errorLevel r.inp .D) r.thrRt then rtWrite s (2 * seg) r.inp.blkD r else r

/-- `RT_SEL <- s` (R102, R109): nothing is cleared. -/
def rtSelect (s : RtSel) (r : Rgd) : Rgd := { r with rt := { r.rt with sel := s } }

/-- RT_EXTRACT (R102). -/
def rtExtract (r : Rgd) : Rgd :=
  match protocolVersion r.inp with
  | .A =>
    rtHalfDA (rtSelector r.inp) (rtSegment r.inp).toNat
      (rtHalfCA (rtSelector r.inp) (rtSegment r.inp).toNat (rtSelect (rtSelector r.inp) r))
  | .B => rtHalfDB (rtSelector r.inp) (rtSegment r.inp).toNat (rtSelect (rtSelector r.inp) r)

end Sys2Proof.Machine
end

