-- ==== Sys2Proof/Machine/Commands.lean ====
section
/-! DEFINITION. The dispatcher and the commands, 44_dispatch_commands.md sections 1 to 4, and the CMD register (R57). -/

namespace Sys2Proof.Machine

/-- `CLASS <- ...` at the start of a FEED (R121). -/
def classify (r : Rgd) : Rgd := { r with cls := classWord r.inp }

/-- The `case` of DISPATCH (R123), with its explicit no-op for a type without an extractor. -/
def route (r : Rgd) : Rgd :=
  match (groupType r.inp).toNat with
  | 0 => psExtract r
  | 2 => rtExtract r
  | 4 =>
    match protocolVersion r.inp with
    | .A => ctExtract r
    | .B => r
  | _ => r

/-- DISPATCH (R123): the gate on block B, then CTRL.GT_EN, then the routing. -/
def dispatch (r : Rgd) : Rgd :=
  if accept (errorLevel r.inp .B) r.thrGt = false then r
  else if r.gtEn (groupType r.inp) = false then r
  else route r

/-- FEED (R121): classify, PI_EXTRACT always, the PTY stage, DISPATCH. -/
def feed (r : Rgd) : Rgd := dispatch (ptyStage (piExtract (classify r)))

/-- INIT (R128): the whole record, and CLASS. -/
def init (r : Rgd) : Rgd := { r.initialRecord with cls := 0x0000#16 }

/-- "Partially filled" (R131, D22): some mark is not -1. -/
def rtPartiallyFilled (r : Rgd) : Bool := r.rt.hwm0 != Config.minusOne || r.rt.hwm1 != Config.minusOne

/-- The conditional RT part of SRESET (R131). -/
def sresetRT (r : Rgd) : Rgd := if rtPartiallyFilled r then r.initialRT else r

/-- The PS and PTY part of SRESET (R131), under CTRL.SR_PS. -/
def sresetPS (r : Rgd) : Rgd := if r.srPs then r.initialPS.initialPTY else r

/-- SRESET (R131), in its order. -/
def sreset (r : Rgd) : Rgd := (sresetPS (sresetRT r.initialPI.initialCT)).initialRDY

/-- NOP (R133): no state changes. -/
def execNop (s : State) : Result := .next s

/-- INIT (R128). -/
def execInit (s : State) : Result := .next (s.onRgd init)

/-- SRESET (R131). -/
def execSreset (s : State) : Result := .next (s.onRgd sreset)

/-- FEED (R121); it never fails (R127). -/
def execFeed (s : State) : Result := .next (s.onRgd feed)

/-- A reserved command word (R134): no state changes, as NOP. -/
def execReserved (_w : Word) (s : State) : Result := .next s

/-- The command of a command word (R73, R74). -/
def runCommand (c : Command) (s : State) : Result :=
  match c with
  | .nop => execNop s
  | .init => execInit s
  | .sreset => execSreset s
  | .feed => execFeed s
  | .reserved w => execReserved w s

/-- WR CMD (R57): it runs the command that `v` encodes, and completes when the command has. -/
def execWrCmd (v : Word) (s : State) : Result := runCommand (decodeCommand v) s

/-- RD CMD (R57, R48): 0, with no effect; CMD stores nothing. -/
def execRdCmd (s : State) : Result := .next (s.answer 0x00000000#32)

end Sys2Proof.Machine
end

