-- ==== Sys2Proof/Machine/HostRead.lean ====
section
/-! DEFINITION. The host reads (R135): the read values of the register map of 20_memory.md R48, one for each row. A read
changes nothing of the RGD (R52); bits the map does not name read 0 (R48). -/

namespace Sys2Proof.Machine

/-- PI_STAT (R48): PI_CODE in 15:0, PI_AVAIL in 16. -/
def piStatWord (r : Rgd) : Word := 0#15 ++ BitVec.ofBool r.pi.avail ++ r.pi.code

/-- PS_STAT (R48): PS_AVAIL in 0. -/
def psStatWord (r : Rgd) : Word := (BitVec.ofBool r.ps.avail).setWidth 32

/-- RT_STAT (R48, R58): RT_SEL in 0, RT_HWM[0] in 15:8, RT_HWM[1] in 23:16. -/
def rtStatWord (r : Rgd) : Word := 0#8 ++ r.rt.hwm1 ++ r.rt.hwm0 ++ 0#7 ++ r.rt.sel.bit

/-- CT_STAT (R48, R58): CT_HOUR in 7:0, CT_MIN in 15:8. -/
def ctStatWord (r : Rgd) : Word := 0#16 ++ r.ct.min ++ r.ct.hour

/-- RD IN_STATUS (R135, R48): IN_STATUS in 7:0. -/
def execRdInStatus (s : State) : Result := .next (s.answer (s.rgd.inp.status.setWidth 32))

/-- RD IN_BLKA (R135, R48): IN_BLKA in 15:0. -/
def execRdInBlkA (s : State) : Result := .next (s.answer (s.rgd.inp.blkA.setWidth 32))

/-- RD IN_BLKB (R135, R48): IN_BLKB in 15:0. -/
def execRdInBlkB (s : State) : Result := .next (s.answer (s.rgd.inp.blkB.setWidth 32))

/-- RD IN_BLKC (R135, R48): IN_BLKC in 15:0. -/
def execRdInBlkC (s : State) : Result := .next (s.answer (s.rgd.inp.blkC.setWidth 32))

/-- RD IN_BLKD (R135, R48): IN_BLKD in 15:0. -/
def execRdInBlkD (s : State) : Result := .next (s.answer (s.rgd.inp.blkD.setWidth 32))

/-- RD IN_ERR (R135, R48): IN_ERR in 15:0. -/
def execRdInErr (s : State) : Result := .next (s.answer (s.rgd.inp.err.setWidth 32))

/-- RD CTRL (R135, R48, R21): CTRL in 18:0. -/
def execRdCtrl (s : State) : Result := .next (s.answer (s.rgd.ctrl.setWidth 32))

/-- RD THR (R135, R48, R22): THR in 9:0. -/
def execRdThr (s : State) : Result := .next (s.answer (s.rgd.thr.setWidth 32))

/-- RD READY (R135, R48, R35): READY in 5:0. -/
def execRdReady (s : State) : Result := .next (s.answer (s.rgd.ready.setWidth 32))

/-- RD PI_STAT (R135, R48). -/
def execRdPiStat (s : State) : Result := .next (s.answer (piStatWord s.rgd))

/-- RD PTY_STAT (R135, R48): PTY in 4:0. -/
def execRdPtyStat (s : State) : Result := .next (s.answer (s.rgd.pty.setWidth 32))

/-- RD PS_STAT (R135, R48). -/
def execRdPsStat (s : State) : Result := .next (s.answer (psStatWord s.rgd))

/-- RD RT_STAT (R135, R48). -/
def execRdRtStat (s : State) : Result := .next (s.answer (rtStatWord s.rgd))

/-- RD CT_STAT (R135, R48). -/
def execRdCtStat (s : State) : Result := .next (s.answer (ctStatWord s.rgd))

/-- RD CLASS (R135, R48, R36): CLASS in 15:0. -/
def execRdClass (s : State) : Result := .next (s.answer (s.rgd.cls.setWidth 32))

/-- RD PS_WIN (R135, R49, R50): the bytes of PS_BUF at window offset `off`. -/
def execRdPsWin (off : Nat) (s : State) : Result := .next (s.answer (windowWord s.rgd.ps.buf (off - psWinBase)))

/-- RD RTA_WIN (R135, R49, R50): the bytes of RT_BUF[0] at window offset `off`. -/
def execRdRtaWin (off : Nat) (s : State) : Result := .next (s.answer (windowWord s.rgd.rt.buf0 (off - rtaWinBase)))

/-- RD RTB_WIN (R135, R49, R50): the bytes of RT_BUF[1] at window offset `off`. -/
def execRdRtbWin (off : Nat) (s : State) : Result := .next (s.answer (windowWord s.rgd.rt.buf1 (off - rtbWinBase)))

/-- RD of a reserved offset (R135, R53): 0. -/
def execRdReserved (_off : Nat) (s : State) : Result := .next (s.answer 0x00000000#32)

end Sys2Proof.Machine
end

