-- ==== Sys2Proof/Machine/HostWrite.lean ====
section
/-! DEFINITION. The host writes (R136, R137): the write effects of the register map of 20_memory.md R48, one for each row;
the write to CMD stands with the commands. A write to an input register starts no processing (R54). -/

namespace Sys2Proof.Machine

/-- A write that the map ignores (R53): it completes (R140) and changes no state. -/
def ignoredWrite (s : State) : Result := .next s

/-- WR IN_STATUS (R54, R136): `IN_STATUS <- v[7:0]`. -/
def execWrInStatus (v : Word) (s : State) : Result :=
  .next (s.onRgd fun r => { r with inp := { r.inp with status := v.extractLsb' 0 8 } })

/-- WR IN_BLKA (R54, R136): `IN_BLKA <- v[15:0]`. -/
def execWrInBlkA (v : Word) (s : State) : Result :=
  .next (s.onRgd fun r => { r with inp := { r.inp with blkA := v.extractLsb' 0 16 } })

/-- WR IN_BLKB (R54, R136): `IN_BLKB <- v[15:0]`. -/
def execWrInBlkB (v : Word) (s : State) : Result :=
  .next (s.onRgd fun r => { r with inp := { r.inp with blkB := v.extractLsb' 0 16 } })

/-- WR IN_BLKC (R54, R136): `IN_BLKC <- v[15:0]`. -/
def execWrInBlkC (v : Word) (s : State) : Result :=
  .next (s.onRgd fun r => { r with inp := { r.inp with blkC := v.extractLsb' 0 16 } })

/-- WR IN_BLKD (R54, R136): `IN_BLKD <- v[15:0]`. -/
def execWrInBlkD (v : Word) (s : State) : Result :=
  .next (s.onRgd fun r => { r with inp := { r.inp with blkD := v.extractLsb' 0 16 } })

/-- WR IN_ERR (R54, R136): `IN_ERR <- v[15:0]`. -/
def execWrInErr (v : Word) (s : State) : Result :=
  .next (s.onRgd fun r => { r with inp := { r.inp with err := v.extractLsb' 0 16 } })

/-- WR CTRL (R55, R136): `CTRL <- v[18:0]`. -/
def execWrCtrl (v : Word) (s : State) : Result :=
  .next (s.onRgd fun r => { r with ctrl := v.extractLsb' 0 19 })

/-- WR THR (R55, R136): `THR <- v[9:0]`. -/
def execWrThr (v : Word) (s : State) : Result :=
  .next (s.onRgd fun r => { r with thr := v.extractLsb' 0 10 })

/-- WR READY (R56, R137): write 1 to clear. -/
def execWrReady (v : Word) (s : State) : Result :=
  .next (s.onRgd fun r => r.clearReady v)

/-- WR PI_STAT (R53, R136): a write to an RO register changes nothing. -/
def execWrPiStat (_v : Word) (s : State) : Result := ignoredWrite s

/-- WR PTY_STAT (R53, R136): a write to an RO register changes nothing. -/
def execWrPtyStat (_v : Word) (s : State) : Result := ignoredWrite s

/-- WR PS_STAT (R53, R136): a write to an RO register changes nothing. -/
def execWrPsStat (_v : Word) (s : State) : Result := ignoredWrite s

/-- WR RT_STAT (R53, R136): a write to an RO register changes nothing. -/
def execWrRtStat (_v : Word) (s : State) : Result := ignoredWrite s

/-- WR CT_STAT (R53, R136): a write to an RO register changes nothing. -/
def execWrCtStat (_v : Word) (s : State) : Result := ignoredWrite s

/-- WR CLASS (R53, R136): a write to an RO register changes nothing. -/
def execWrClass (_v : Word) (s : State) : Result := ignoredWrite s

/-- WR PS_WIN (R53, R48): the window is RO, so a write changes nothing. -/
def execWrPsWin (_off : Nat) (_v : Word) (s : State) : Result := ignoredWrite s

/-- WR RTA_WIN (R53, R48): the window is RO, so a write changes nothing. -/
def execWrRtaWin (_off : Nat) (_v : Word) (s : State) : Result := ignoredWrite s

/-- WR RTB_WIN (R53, R48): the window is RO, so a write changes nothing. -/
def execWrRtbWin (_off : Nat) (_v : Word) (s : State) : Result := ignoredWrite s

/-- WR of a reserved offset (R53): ignored. -/
def execWrReserved (_off : Nat) (_v : Word) (s : State) : Result := ignoredWrite s

end Sys2Proof.Machine
end

