-- ==== Sys2Proof/Machine/Dispatch.lean ====
section
/-! DEFINITION. One arm for each row of opcode_table.json. -/

namespace Sys2Proof.Machine

def exec (i : Instr) (s : State) : Host.Outcome State Fault Refusal :=
  match i with
  | .nop => Sys2Proof.Machine.execNop s
  | .init => Sys2Proof.Machine.execInit s
  | .sreset => Sys2Proof.Machine.execSreset s
  | .feed => Sys2Proof.Machine.execFeed s
  | .reserved w => Sys2Proof.Machine.execReserved w s
  | .rdCmd => Sys2Proof.Machine.execRdCmd s
  | .wrCmd v => Sys2Proof.Machine.execWrCmd v s
  | .rdInStatus => Sys2Proof.Machine.execRdInStatus s
  | .wrInStatus v => Sys2Proof.Machine.execWrInStatus v s
  | .rdInBlkA => Sys2Proof.Machine.execRdInBlkA s
  | .wrInBlkA v => Sys2Proof.Machine.execWrInBlkA v s
  | .rdInBlkB => Sys2Proof.Machine.execRdInBlkB s
  | .wrInBlkB v => Sys2Proof.Machine.execWrInBlkB v s
  | .rdInBlkC => Sys2Proof.Machine.execRdInBlkC s
  | .wrInBlkC v => Sys2Proof.Machine.execWrInBlkC v s
  | .rdInBlkD => Sys2Proof.Machine.execRdInBlkD s
  | .wrInBlkD v => Sys2Proof.Machine.execWrInBlkD v s
  | .rdInErr => Sys2Proof.Machine.execRdInErr s
  | .wrInErr v => Sys2Proof.Machine.execWrInErr v s
  | .rdCtrl => Sys2Proof.Machine.execRdCtrl s
  | .wrCtrl v => Sys2Proof.Machine.execWrCtrl v s
  | .rdThr => Sys2Proof.Machine.execRdThr s
  | .wrThr v => Sys2Proof.Machine.execWrThr v s
  | .rdReady => Sys2Proof.Machine.execRdReady s
  | .wrReady v => Sys2Proof.Machine.execWrReady v s
  | .rdPiStat => Sys2Proof.Machine.execRdPiStat s
  | .wrPiStat v => Sys2Proof.Machine.execWrPiStat v s
  | .rdPtyStat => Sys2Proof.Machine.execRdPtyStat s
  | .wrPtyStat v => Sys2Proof.Machine.execWrPtyStat v s
  | .rdPsStat => Sys2Proof.Machine.execRdPsStat s
  | .wrPsStat v => Sys2Proof.Machine.execWrPsStat v s
  | .rdRtStat => Sys2Proof.Machine.execRdRtStat s
  | .wrRtStat v => Sys2Proof.Machine.execWrRtStat v s
  | .rdCtStat => Sys2Proof.Machine.execRdCtStat s
  | .wrCtStat v => Sys2Proof.Machine.execWrCtStat v s
  | .rdClass => Sys2Proof.Machine.execRdClass s
  | .wrClass v => Sys2Proof.Machine.execWrClass v s
  | .rdPsWin off => Sys2Proof.Machine.execRdPsWin off s
  | .wrPsWin off v => Sys2Proof.Machine.execWrPsWin off v s
  | .rdRtaWin off => Sys2Proof.Machine.execRdRtaWin off s
  | .wrRtaWin off v => Sys2Proof.Machine.execWrRtaWin off v s
  | .rdRtbWin off => Sys2Proof.Machine.execRdRtbWin off s
  | .wrRtbWin off v => Sys2Proof.Machine.execWrRtbWin off v s
  | .rdReserved off => Sys2Proof.Machine.execRdReserved off s
  | .wrReserved off v => Sys2Proof.Machine.execWrReserved off v s

end Sys2Proof.Machine
end

