-- ==== Sys2Proof/Machine/Step.lean ====
section
/-! DEFINITION. One step: the RGD takes the oldest pending host event (R60). A host access is fetched, decoded and run
to completion (R5); a hardware reset puts the RGD at its reset values (R153); with nothing pending the RGD waits and
changes nothing (R6, R155; log 3). There is no program counter to advance (R16). -/

namespace Sys2Proof.Machine

/-- The state once the oldest event has been taken from the host port. -/
def State.taken (s : State) (rest : List HostEvent) : State :=
  { s with host := { s.host with pending := rest } }

/-- One step of the machine. -/
def step (s : State) : Host.Outcome State Fault Refusal :=
  match s.host.pending with
  | [] => .next s
  | .hwReset :: rest => .next (hwReset (s.taken rest))
  | .access a :: rest =>
    match fetch s.host a with
    | .ok i => exec i (s.taken rest)
    | .error why => .refused why

/-- `s` with the host access that carries a word of opcode_table.json as its oldest pending event (log 1, 8). -/
def State.withFetchWord (s : State) (nbits w : Nat) : State :=
  { s with
    host := { s.host with pending := .access (s.host.accessOf (tableEncoding nbits w)) :: s.host.pending } }

end Sys2Proof.Machine
end

