-- ==== Sys2Proof/Safety.lean ====
section
/-! DEFINITION. What claims about a run are stated in: the invariants of 10_state.md section 6, the register window
read byte by byte (20_memory.md R48 to R50), the accesses of the interface contract (R45, R47), and the comparisons of
two machines that the isolation claims use. -/

namespace Sys2Proof

/-- A host event of the interface contract for a window at `base`: a hardware reset (R153), or an aligned 32-bit access
inside the window (R45, R47). -/
def HostEvent.InContract (base : Nat) : HostEvent → Prop
  | .hwReset => True
  | .access a => a.bytes = 4 ∧ base ≤ a.addr ∧ a.addr < base + 0x200 ∧ (a.addr - base) % 4 = 0

/-- Whether an event returns a value to the host: a read does. -/
def HostEvent.isRead : HostEvent → Bool
  | .hwReset => false
  | .access a => a.dir == .read

/-- A host event for a window moved up by `k` blocks of 0x200 bytes (R46). -/
def HostEvent.shift (k : Nat) : HostEvent → HostEvent
  | .hwReset => .hwReset
  | .access a => .access { a with addr := a.addr + 0x200 * k }

end Sys2Proof

namespace Sys2Proof.Machine

/-- R37: the three terminators are 0x00. -/
abbrev Rgd.Terminated (r : Rgd) : Prop :=
  byteAt r.ps.buf 8 = 0x00#8 ∧ byteAt r.rt.buf0 64 = 0x00#8 ∧ byteAt r.rt.buf1 64 = 0x00#8

/-- R40: PI_SHADOW = PI_CODE always, and both are 0x0000 while PI_AVAIL = 0. -/
abbrev Rgd.PiShadowed (r : Rgd) : Prop :=
  r.pi.shadow = r.pi.code ∧ (r.pi.avail = false → r.pi.code = 0x0000#16 ∧ r.pi.shadow = 0x0000#16)

/-- R41: PS_SHADOW[i] = PS_BUF[i] for every i in 0..7. -/
abbrev Rgd.PsShadowed (r : Rgd) : Prop :=
  ∀ i, i < 8 → byteAt r.ps.shadow i = byteAt r.ps.buf i

/-- R42, in one state: while PS_AVAIL = 0 the station name is all spaces. -/
abbrev Rgd.PsBlankUntilAvail (r : Rgd) : Prop :=
  r.ps.avail = false → ∀ i, i < 8 → byteAt r.ps.buf i = 0x20#8

/-- R39: the clock fields are both -1, or the hour is in 0..23 and the minute in 0..63. -/
abbrev Rgd.ClockValid (r : Rgd) : Prop :=
  (r.ct.hour.toInt = -1 ↔ r.ct.min.toInt = -1) ∧
  (r.ct.hour.toInt ≠ -1 → 0 ≤ r.ct.hour.toInt ∧ r.ct.hour.toInt ≤ 23) ∧
  (r.ct.min.toInt ≠ -1 → 0 ≤ r.ct.min.toInt ∧ r.ct.min.toInt ≤ 63)

/-- R33 and R107: a mark is -1, or even and in 2..64. -/
abbrev MarkValid (m : BitVec 8) : Prop :=
  m.toInt = -1 ∨ (2 ≤ m.toInt ∧ m.toInt ≤ 64 ∧ m.toInt % 2 = 0)

/-- R33: a mark is one past the highest character index written since the last reset, so every character at or beyond
it is still a space. -/
abbrev BlankFromMark (buf : Vector Byte 65) (m : BitVec 8) : Prop :=
  ∀ i : Nat, i < 64 → m.toInt ≤ (i : Int) → byteAt buf i = 0x20#8

/-- R33, R107 and R132 for both RT buffers. -/
def Rgd.MarksBoundText (r : Rgd) : Prop :=
  ∀ s : RtSel, MarkValid (r.rt.hwm s) ∧ BlankFromMark (r.rt.buf s) (r.rt.hwm s)

/-- R35, R42: READY[5] is 0. -/
abbrev Rgd.ReadyReservedClear (r : Rgd) : Prop := r.ready.getLsbD 5 = false

/-- R36: CLASS[3:2] is 0, and CLASS is 0 until VALID is set. -/
abbrev Rgd.ClassValid (r : Rgd) : Prop :=
  r.cls.getLsbD 2 = false ∧ r.cls.getLsbD 3 = false ∧ (r.cls.getLsbD 1 = false → r.cls = 0x0000#16)

/-- The invariants of 10_state.md section 6 together. -/
structure Rgd.Inv (r : Rgd) : Prop where
  terminated : r.Terminated
  piShadowed : r.PiShadowed
  psShadowed : r.PsShadowed
  psBlank : r.PsBlankUntilAvail
  clock : r.ClockValid
  marks : r.MarksBoundText
  readyReserved : r.ReadyReservedClear
  classValid : r.ClassValid

/-- The record group at InitialRecord (R43), element by element. -/
structure Rgd.InitialRecordHolds (r : Rgd) : Prop where
  piCode : r.pi.code = 0x0000#16
  piShadow : r.pi.shadow = 0x0000#16
  piAvail : r.pi.avail = false
  pty : r.pty = 0#5
  psChars : ∀ i, i < 8 → byteAt r.ps.buf i = 0x20#8
  psTerminator : byteAt r.ps.buf 8 = 0x00#8
  psShadow : ∀ i, i < 8 → byteAt r.ps.shadow i = 0x20#8
  psAvail : r.ps.avail = false
  rtChars : ∀ s i, i < 64 → byteAt (r.rt.buf s) i = 0x20#8
  rtTerminator : ∀ s, byteAt (r.rt.buf s) 64 = 0x00#8
  rtMark : ∀ s, (r.rt.hwm s).toInt = -1
  rtSel : r.rt.sel = .A
  ctHour : r.ct.hour.toInt = -1
  ctMin : r.ct.min.toInt = -1
  ready : r.ready = 0b000000#6

/-- The byte at window offset `o` (R48, R49, R50), read off the register map with no use of the read instructions.
Offsets the map does not name are 0. -/
def windowByte (r : Rgd) (o : Nat) : Byte :=
  match o with
  | 0x004 => r.inp.status
  | 0x008 => r.inp.blkA.extractLsb' 0 8
  | 0x009 => r.inp.blkA.extractLsb' 8 8
  | 0x00C => r.inp.blkB.extractLsb' 0 8
  | 0x00D => r.inp.blkB.extractLsb' 8 8
  | 0x010 => r.inp.blkC.extractLsb' 0 8
  | 0x011 => r.inp.blkC.extractLsb' 8 8
  | 0x014 => r.inp.blkD.extractLsb' 0 8
  | 0x015 => r.inp.blkD.extractLsb' 8 8
  | 0x018 => r.inp.err.extractLsb' 0 8
  | 0x019 => r.inp.err.extractLsb' 8 8
  | 0x020 => r.ctrl.extractLsb' 0 8
  | 0x021 => r.ctrl.extractLsb' 8 8
  | 0x022 => (r.ctrl.extractLsb' 16 3).setWidth 8
  | 0x024 => r.thr.extractLsb' 0 8
  | 0x025 => (r.thr.extractLsb' 8 2).setWidth 8
  | 0x028 => r.ready.setWidth 8
  | 0x02C => r.pi.code.extractLsb' 0 8
  | 0x02D => r.pi.code.extractLsb' 8 8
  | 0x02E => if r.pi.avail then 1#8 else 0#8
  | 0x030 => r.pty.setWidth 8
  | 0x034 => if r.ps.avail then 1#8 else 0#8
  | 0x038 => if r.rt.sel = .B then 1#8 else 0#8
  | 0x039 => r.rt.hwm .A
  | 0x03A => r.rt.hwm .B
  | 0x03C => r.ct.hour
  | 0x03D => r.ct.min
  | 0x040 => r.cls.extractLsb' 0 8
  | 0x041 => r.cls.extractLsb' 8 8
  | _ =>
    if 0x080 ≤ o ∧ o ≤ 0x088 then byteAt r.ps.buf (o - 0x080)
    else if 0x100 ≤ o ∧ o ≤ 0x140 then byteAt (r.rt.buf .A) (o - 0x100)
    else if 0x180 ≤ o ∧ o ≤ 0x1C0 then byteAt (r.rt.buf .B) (o - 0x180)
    else 0x00#8

/-- The error level of a block as a number (R66), the claims' own reading of IN_ERR. -/
def Inputs.level (g : Inputs) : Block → Nat
  | .A => g.err.toNat / 64 % 4
  | .B => g.err.toNat / 16 % 4
  | .C => g.err.toNat / 4 % 4
  | .D => g.err.toNat % 4

/-- The group is a version B group (R65). -/
abbrev Inputs.IsVersionB (g : Inputs) : Prop := g.status.toNat / 16 % 2 = 1

/-- A FEED routes the group as type `t` (R123): block B at or below THR_GT, group type `t`, CTRL.GT_EN[t] set. -/
abbrev Rgd.RoutedAs (r : Rgd) (t : Nat) : Prop :=
  r.inp.level .B ≤ r.thr.toNat / 4 % 4 ∧ r.inp.blkB.toNat / 4096 = t ∧ r.ctrl.getLsbD t = true

/-- A block is at or below the threshold field of THR whose lowest bit is bit `k` (R22, R85). -/
abbrev Rgd.Accepts (r : Rgd) (b : Block) (k : Nat) : Prop := r.inp.level b ≤ r.thr.toNat / 2 ^ k % 4

/-- The PI candidate's block (R89). -/
abbrev Inputs.piFromC (g : Inputs) : Prop := g.IsVersionB ∧ g.level .C < g.level .A

/-- The PTY code of block B (R67). -/
def Inputs.ptyNumber (g : Inputs) : Nat := g.blkB.toNat / 32 % 32

/-- The raw hour of a clock group (R70, R116). -/
def Inputs.hourNumber (g : Inputs) : Int := ((g.blkC.toNat % 2 * 16 + g.blkD.toNat / 4096 : Nat) : Int)

/-- The minute of a clock group (R70). -/
def Inputs.minuteNumber (g : Inputs) : Nat := g.blkD.toNat / 64 % 64

/-- The signed offset of a clock group (R70, R117). -/
def Inputs.offsetNumber (g : Inputs) : Int :=
  if g.blkD.toNat / 32 % 2 = 1 then -((g.blkD.toNat % 32 : Nat) : Int) else ((g.blkD.toNat % 32 : Nat) : Int)

/-- The selector of a radio-text group (R67): bit 4 of block B. -/
def Inputs.selector (g : Inputs) : RtSel := if g.blkB.toNat / 16 % 2 = 1 then .B else .A

/-- The high byte of a block (R51). -/
def highByte (w : Half) : Byte := BitVec.ofNat 8 (w.toNat / 256)

/-- The low byte of a block (R51). -/
def lowByte (w : Half) : Byte := BitVec.ofNat 8 w.toNat

/-- The other of the two RT buffers (R102). -/
def RtSel.other : RtSel → RtSel
  | .A => .B
  | .B => .A

/-- Two raw groups that differ only in bits the RGD ignores: IN_STATUS[7:5], IN_STATUS[3:0] and IN_ERR[15:8] (R65, R66). -/
abbrev Inputs.SameUsedBits (g g' : Inputs) : Prop :=
  g'.blkA = g.blkA ∧ g'.blkB = g.blkB ∧ g'.blkC = g.blkC ∧ g'.blkD = g.blkD ∧
  g'.status.getLsbD 4 = g.status.getLsbD 4 ∧ g'.err.extractLsb' 0 8 = g.err.extractLsb' 0 8

/-- The decoded record and CLASS of two machines agree (R17). -/
abbrev Rgd.SameRecord (r r' : Rgd) : Prop :=
  r'.pi = r.pi ∧ r'.pty = r.pty ∧ r'.ps = r.ps ∧ r'.rt = r.rt ∧ r'.ct = r.ct ∧ r'.ready = r.ready ∧ r'.cls = r.cls

/-- Two machines that differ at most in the internal shadows (R25, R29). -/
abbrev Rgd.SameButShadows (r r' : Rgd) : Prop :=
  r' = { r with pi := { r.pi with shadow := r'.pi.shadow }, ps := { r.ps with shadow := r'.ps.shadow } }

/-- The same machine with its window, and every pending access, `k` blocks higher (R46). -/
def State.shift (k : Nat) (s : State) : State :=
  { s with
    host :=
      { s.host with
        pBaseBlock := s.host.pBaseBlock + k
        pending := s.host.pending.map (HostEvent.shift k) } }

/-- The seven writes of the pseudo-instruction `feed st, a, b, c, d, e` (R79), in order, for a window at `base`. -/
def feedWrites (base : Nat) (st : Byte) (a b c d e : Half) : List HostEvent :=
  let wr (off : Nat) (v : Word) : HostEvent := .access { dir := .write v, bytes := 4, addr := base + off }
  [wr 0x004 (st.setWidth 32), wr 0x008 (a.setWidth 32), wr 0x00C (b.setWidth 32), wr 0x010 (c.setWidth 32),
   wr 0x014 (d.setWidth 32), wr 0x018 (e.setWidth 32), wr 0x000 0x00000003#32]

end Sys2Proof.Machine
end

