-- ==== Sys2Proof/Certificates/Slice0/Obligations.lean ====
section
/-! DEFINITION. The statements for the provers. Each docstring names the rules of spec/ that it formalises, or says that
it rests on a choice of the model and names the log entry. `host.pending` and `host.returned` are the model's account of
what the host issues and is answered (log 1, 6), in every statement that names them. -/

open Sys2Proof Sys2Proof.Machine

/-- R72, R73, R74, R48: words and offsets written out from the tables decode to the instructions they stand for. -/
def Obligations.WrittenWordsDecode : Prop :=
  decode (.command 0x00000000#32) = .ok .nop ∧
  decode (.command 0x00000001#32) = .ok .init ∧
  decode (.command 0x00000002#32) = .ok .sreset ∧
  decode (.command 0x00000003#32) = .ok .feed ∧
  decode (.command 0x00000103#32) = .ok (.reserved 0x00000103#32) ∧
  decode (.command 0x000000FF#32) = .ok (.reserved 0x000000FF#32) ∧
  decode (.access .read 4 0x038) = .ok .rdRtStat ∧
  decode (.access .read 4 0x140) = .ok (.rdRtaWin 0x140) ∧
  decode (.access .read 4 0x01C) = .ok (.rdReserved 0x01C) ∧
  (∀ v : Word, decode (.access (.write v) 4 0x000) = .ok (.wrCmd v)) ∧
  (∀ v : Word, decode (.access (.write v) 4 0x028) = .ok (.wrReady v)) ∧
  (∀ v : Word, decode (.access (.write v) 4 0x144) = .ok (.wrReserved 0x144 v))

/-- R73, R74, R48: no bit of an encoding is dropped, for every instruction and every operand. -/
def Obligations.DecodeInvertsEncode : Prop :=
  ∀ i : Instr, i.wellFormed = true → decode (encode i) = .ok i

/-- R73, R74, R48: an encoding that decodes gives a well-formed instruction, and is its only encoding. -/
def Obligations.EncodeInvertsDecode : Prop :=
  ∀ (e : Encoding) (i : Instr), decode e = .ok i → i.wellFormed = true ∧ encode i = e

/-- R72, R74, R47: every command word decodes, and an access decodes exactly where it is 32 bits wide, aligned and in
the window. -/
def Obligations.DecodingIsDefinedExactlyOnTheContract : Prop :=
  (∀ w : Word, ∃ i, decode (.command w) = .ok i) ∧
  (∀ (d : Dir) (bytes off : Nat),
    (∃ i, decode (.access d bytes off) = .ok i) ↔ (bytes = 4 ∧ off % 4 = 0 ∧ off < 0x200))

/-- R47: of the accesses to the window, the step refuses, and records as outside the contract, exactly those that are
not aligned 32-bit accesses; it gives them no other outcome. -/
def Obligations.UndefinedAccessesAreRefused : Prop :=
  ∀ (s : State) (a : HostAccess) (rest : List HostEvent),
    s.host.pending = .access a :: rest →
    0x200 * s.host.pBaseBlock ≤ a.addr → a.addr < 0x200 * s.host.pBaseBlock + 0x200 →
    ((∃ why, step s = .refused (.contract why)) ↔
      ¬(a.bytes = 4 ∧ (a.addr - 0x200 * s.host.pBaseBlock) % 4 = 0))

/-- Log 4 (the model's choice, beside R45): an access to an address outside the window is refused as such. -/
def Obligations.AccessesOutsideTheWindowAreRefused : Prop :=
  ∀ (s : State) (a : HostAccess) (rest : List HostEvent),
    s.host.pending = .access a :: rest →
    (a.addr < 0x200 * s.host.pBaseBlock ∨ 0x200 * s.host.pBaseBlock + 0x200 ≤ a.addr) →
    step s = .refused (.outsideWindow a.addr)

/-- R46, R48, R60: when the oldest pending access is in the window and decodes, the step takes it and runs the decoded
instruction. With nothing pending the RGD waits, unchanged (log 3). -/
def Obligations.StepRunsTheDecodedInstruction : Prop :=
  (∀ (s : State) (a : HostAccess) (rest : List HostEvent) (i : Instr),
    s.host.pending = .access a :: rest →
    0x200 * s.host.pBaseBlock ≤ a.addr → a.addr < 0x200 * s.host.pBaseBlock + 0x200 →
    decode (.access a.dir a.bytes (a.addr - 0x200 * s.host.pBaseBlock)) = .ok i →
    step s = exec i { s with host := { s.host with pending := rest } }) ∧
  (∀ s : State, s.host.pending = [] → step s = .next s)

/-- R57, R72: a write to CMD runs the command its value encodes, and completes with it; a read of CMD returns 0 and has
no effect. -/
def Obligations.CmdWriteRunsItsCommand : Prop :=
  (∀ (v : Word) (i : Instr) (s : State), decode (.command v) = .ok i → exec (.wrCmd v) s = exec i s) ∧
  (∀ (v : Word) (s : State), ∃ t, exec (.wrCmd v) s = .next t ∧ t.host = s.host) ∧
  (∀ s : State,
    exec .rdCmd s =
      .next { s with host := { s.host with returned := 0x00000000#32 :: s.host.returned } })

/-- R141 for the commands, R135, R136 and R140 for the reads and writes: no instruction fails. That no step faults rests on
log 13 (DEDUCED: there is no fault), and that it holds of terms no encoding gives on log 15 (DESIGN CHOICE). -/
def Obligations.EveryInstructionCompletes : Prop :=
  (∀ (i : Instr) (s : State), ∃ t, exec i s = .next t ∧ t.host.pending = s.host.pending) ∧
  (∀ (s : State) (f : Fault), step s ≠ .fault f)

/-- R5, R60, R140, R153, and the host port of log 1 and log 6: however many events of the interface contract are pending,
as many steps take them all, without a refusal, and as many values are returned as there are reads among them. That a
hardware reset in the queue leaves later accesses pending and earlier values returned is the choice of log 7. -/
def Obligations.ContractAccessesAllComplete : Prop :=
  ∀ s : State,
    (∀ e, e ∈ s.host.pending → e.InContract (0x200 * s.host.pBaseBlock)) →
    ∃ t, Host.Core.run Sys2Proof.core s.host.pending.length s = .next t ∧
      t.host.pending = [] ∧
      t.host.returned.length = s.host.returned.length + s.host.pending.countP HostEvent.isRead

/-- R6, R153: a step that changes the RGD took a host write or a hardware reset. -/
def Obligations.OnlyWritesAndResetChangeTheRgd : Prop :=
  ∀ s t : State, step s = .next t → t.rgd ≠ s.rgd →
    (∃ rest, s.host.pending = .hwReset :: rest) ∨
    (∃ a v rest, s.host.pending = .access a :: rest ∧ a.dir = .write v)

/-- R153: hardware reset puts every element at its reset value, whatever the state before. The host's side keeps its
values (log 7). -/
def Obligations.HardwareResetSetsEveryElement : Prop :=
  ∀ (s : State) (rest : List HostEvent), s.host.pending = .hwReset :: rest →
    ∃ t, step s = .next t ∧ t.rgd.InitialRecordHolds ∧
      t.rgd.cls = 0x0000#16 ∧ t.rgd.ctrl = 0x20005#19 ∧ t.rgd.thr = 0x000#10 ∧
      t.rgd.inp.status = 0x00#8 ∧ t.rgd.inp.blkA = 0x0000#16 ∧ t.rgd.inp.blkB = 0x0000#16 ∧
      t.rgd.inp.blkC = 0x0000#16 ∧ t.rgd.inp.blkD = 0x0000#16 ∧ t.rgd.inp.err = 0x0000#16 ∧
      t.host = { s.host with pending := rest }

/-- R17, R153: State.reset has the reset values of R17. -/
def Obligations.ResetStateHasTheResetValues : Prop :=
  State.reset.rgd.InitialRecordHolds ∧ State.reset.rgd.cls = 0x0000#16 ∧ State.reset.rgd.ctrl = 0x20005#19 ∧
  State.reset.rgd.thr = 0x000#10 ∧ State.reset.rgd.inp.status = 0x00#8 ∧ State.reset.rgd.inp.blkA = 0x0000#16 ∧
  State.reset.rgd.inp.blkB = 0x0000#16 ∧ State.reset.rgd.inp.blkC = 0x0000#16 ∧
  State.reset.rgd.inp.blkD = 0x0000#16 ∧ State.reset.rgd.inp.err = 0x0000#16

/-- R154: what host reads return after hardware reset, row for row. -/
def Obligations.ReadsAfterReset : Prop :=
  ∀ (s : State) (i : Instr) (v : Word), s.rgd = State.reset.rgd →
    (i, v) ∈
      [(Instr.rdCmd, 0x00000000#32), (.rdInStatus, 0x00000000#32), (.rdInBlkA, 0x00000000#32),
       (.rdInBlkB, 0x00000000#32), (.rdInBlkC, 0x00000000#32), (.rdInBlkD, 0x00000000#32),
       (.rdInErr, 0x00000000#32), (.rdCtrl, 0x00020005#32), (.rdThr, 0x00000000#32), (.rdReady, 0x00000000#32),
       (.rdPiStat, 0x00000000#32), (.rdPtyStat, 0x00000000#32), (.rdPsStat, 0x00000000#32),
       (.rdRtStat, 0x00FFFF00#32), (.rdCtStat, 0x0000FFFF#32), (.rdClass, 0x00000000#32),
       (.rdPsWin 0x080, 0x20202020#32), (.rdPsWin 0x084, 0x20202020#32), (.rdPsWin 0x088, 0x00000000#32),
       (.rdRtaWin 0x140, 0x00000000#32), (.rdRtbWin 0x1C0, 0x00000000#32)] ++
      (List.range 16).map (fun k => (Instr.rdRtaWin (0x100 + 4 * k), 0x20202020#32)) ++
      (List.range 16).map (fun k => (Instr.rdRtbWin (0x180 + 4 * k), 0x20202020#32)) →
    exec i s = .next { s with host := { s.host with returned := v :: s.host.returned } }

/-- R133, R134, R74: NOP and every reserved word, as an instruction and as a value written to CMD, change no state. -/
def Obligations.NopAndReservedWordsChangeNothing : Prop :=
  (∀ s : State, exec .nop s = .next s ∧ exec (.wrCmd 0x00000000#32) s = .next s) ∧
  (∀ (w : Word) (s : State), exec (.reserved w) s = .next s) ∧
  (∀ (w : Word) (s : State), 4 ≤ w.toNat → exec (.wrCmd w) s = .next s)

/-- R128: INIT, from any state, gives the initial record and CLASS 0, and writes nothing else. -/
def Obligations.InitGivesTheInitialRecord : Prop :=
  ∀ s : State, ∃ t, exec .init s = .next t ∧ t.rgd.InitialRecordHolds ∧ t.rgd.cls = 0x0000#16 ∧
    t.rgd.ctrl = s.rgd.ctrl ∧ t.rgd.thr = s.rgd.thr ∧ t.rgd.inp = s.rgd.inp ∧ t.host = s.host

/-- R131: SRESET resets PI, the clock and READY always; both RT buffers, both marks and RT_SEL where some mark is not
-1; the PS group and PTY where CTRL.SR_PS (bit 17) is 1; and writes nothing else. -/
def Obligations.SresetIsSelective : Prop :=
  ∀ s : State, ∃ t, exec .sreset s = .next t ∧
    t.rgd.pi.code = 0x0000#16 ∧ t.rgd.pi.shadow = 0x0000#16 ∧ t.rgd.pi.avail = false ∧
    t.rgd.ct.hour.toInt = -1 ∧ t.rgd.ct.min.toInt = -1 ∧ t.rgd.ready = 0b000000#6 ∧
    ((∃ b, (s.rgd.rt.hwm b).toInt ≠ -1) →
      (∀ b, (∀ i, i < 64 → byteAt (t.rgd.rt.buf b) i = 0x20#8) ∧ byteAt (t.rgd.rt.buf b) 64 = 0x00#8 ∧
        (t.rgd.rt.hwm b).toInt = -1) ∧ t.rgd.rt.sel = .A) ∧
    ((∀ b, (s.rgd.rt.hwm b).toInt = -1) → t.rgd.rt = s.rgd.rt) ∧
    (s.rgd.ctrl.getLsbD 17 = true →
      (∀ i, i < 8 → byteAt t.rgd.ps.buf i = 0x20#8 ∧ byteAt t.rgd.ps.shadow i = 0x20#8) ∧
      byteAt t.rgd.ps.buf 8 = 0x00#8 ∧ t.rgd.ps.avail = false ∧ t.rgd.pty = 0#5) ∧
    (s.rgd.ctrl.getLsbD 17 = false → t.rgd.ps = s.rgd.ps ∧ t.rgd.pty = s.rgd.pty) ∧
    t.rgd.cls = s.rgd.cls ∧ t.rgd.ctrl = s.rgd.ctrl ∧ t.rgd.thr = s.rgd.thr ∧ t.rgd.inp = s.rgd.inp ∧
    t.host = s.host

/-- R132, R131: in a state that meets the invariant, SRESET leaves both RT buffers all spaces with both marks -1, even
where it does not write them; then RT_SEL keeps its value. -/
def Obligations.SresetAlwaysLeavesRadioTextBlank : Prop :=
  ∀ s : State, s.rgd.Inv → ∃ t, exec .sreset s = .next t ∧
    (∀ b, (t.rgd.rt.hwm b).toInt = -1 ∧ (∀ i, i < 64 → byteAt (t.rgd.rt.buf b) i = 0x20#8) ∧
      byteAt (t.rgd.rt.buf b) 64 = 0x00#8) ∧
    ((∀ b, (s.rgd.rt.hwm b).toInt = -1) → t.rgd.rt.sel = s.rgd.rt.sel)

/-- R48, R58, R135, R52: what the sixteen single-register reads return, as numbers; each changes nothing of the RGD. -/
def Obligations.RegisterReadsReturnTheirFields : Prop :=
  ∀ s : State,
    let reads (i : Instr) (n : Nat) : Prop :=
      ∃ v : Word, v.toNat = n ∧
        exec i s = .next { s with host := { s.host with returned := v :: s.host.returned } }
    reads .rdCmd 0 ∧ reads .rdInStatus s.rgd.inp.status.toNat ∧ reads .rdInBlkA s.rgd.inp.blkA.toNat ∧
    reads .rdInBlkB s.rgd.inp.blkB.toNat ∧ reads .rdInBlkC s.rgd.inp.blkC.toNat ∧
    reads .rdInBlkD s.rgd.inp.blkD.toNat ∧ reads .rdInErr s.rgd.inp.err.toNat ∧ reads .rdCtrl s.rgd.ctrl.toNat ∧
    reads .rdThr s.rgd.thr.toNat ∧ reads .rdReady s.rgd.ready.toNat ∧
    reads .rdPiStat (s.rgd.pi.code.toNat + 0x10000 * (if s.rgd.pi.avail then 1 else 0)) ∧
    reads .rdPtyStat s.rgd.pty.toNat ∧ reads .rdPsStat (if s.rgd.ps.avail then 1 else 0) ∧
    reads .rdRtStat
      ((if s.rgd.rt.sel = .B then 1 else 0) + 0x100 * (s.rgd.rt.hwm .A).toNat + 0x10000 * (s.rgd.rt.hwm .B).toNat) ∧
    reads .rdCtStat (s.rgd.ct.hour.toNat + 0x100 * s.rgd.ct.min.toNat) ∧ reads .rdClass s.rgd.cls.toNat

/-- R49, R50, R53: what a read of a buffer window or of a reserved offset returns, as a number: four bytes, the lowest
offset in the lowest bits, 0x00 past the terminator. -/
def Obligations.WindowReadsReturnTheirBytes : Prop :=
  ∀ (s : State) (off : Nat),
    let reads (i : Instr) (n : Nat) : Prop :=
      ∃ v : Word, v.toNat = n ∧
        exec i s = .next { s with host := { s.host with returned := v :: s.host.returned } }
    let word (f : Nat → Byte) (j : Nat) : Nat :=
      (f j).toNat + 0x100 * (f (j + 1)).toNat + 0x10000 * (f (j + 2)).toNat + 0x1000000 * (f (j + 3)).toNat
    ((Instr.rdPsWin off).wellFormed = true →
      reads (.rdPsWin off) (word (fun j => if j ≤ 8 then byteAt s.rgd.ps.buf j else 0x00#8) (off - 0x080))) ∧
    ((Instr.rdRtaWin off).wellFormed = true →
      reads (.rdRtaWin off) (word (fun j => if j ≤ 64 then byteAt (s.rgd.rt.buf .A) j else 0x00#8) (off - 0x100))) ∧
    ((Instr.rdRtbWin off).wellFormed = true →
      reads (.rdRtbWin off) (word (fun j => if j ≤ 64 then byteAt (s.rgd.rt.buf .B) j else 0x00#8) (off - 0x180))) ∧
    ((Instr.rdReserved off).wellFormed = true → reads (.rdReserved off) 0)

/-- R135, R48, R49, R50, R52: a pending aligned 32-bit read at any offset of the window completes in one step, changes
nothing of the RGD, and returns the four bytes that the register map has there, little-endian. -/
def Obligations.ReadsReturnTheRegisterMap : Prop :=
  ∀ (s : State) (off : Nat) (rest : List HostEvent),
    off < 0x200 → off % 4 = 0 →
    s.host.pending = .access { dir := .read, bytes := 4, addr := 0x200 * s.host.pBaseBlock + off } :: rest →
    ∃ v : Word,
      step s = .next { s with host := { s.host with pending := rest, returned := v :: s.host.returned } } ∧
      ∀ k, k < 4 → v.extractLsb' (8 * k) 8 = windowByte s.rgd (off + k)

/-- R54: a write to an input register stores the low bits of the value there and nothing anywhere else. -/
def Obligations.InputWritesStoreTheLowBits : Prop :=
  ∀ (v : Word) (s : State),
    let leaves (g : Inputs) : Result := .next { s with rgd := { s.rgd with inp := g } }
    exec (.wrInStatus v) s = leaves { s.rgd.inp with status := BitVec.ofNat 8 v.toNat } ∧
    exec (.wrInBlkA v) s = leaves { s.rgd.inp with blkA := BitVec.ofNat 16 v.toNat } ∧
    exec (.wrInBlkB v) s = leaves { s.rgd.inp with blkB := BitVec.ofNat 16 v.toNat } ∧
    exec (.wrInBlkC v) s = leaves { s.rgd.inp with blkC := BitVec.ofNat 16 v.toNat } ∧
    exec (.wrInBlkD v) s = leaves { s.rgd.inp with blkD := BitVec.ofNat 16 v.toNat } ∧
    exec (.wrInErr v) s = leaves { s.rgd.inp with err := BitVec.ofNat 16 v.toNat }

/-- R55: a write to CTRL stores bits 18:0 of the value, a write to THR bits 9:0, at once, and nothing else changes. -/
def Obligations.ConfigurationWritesStoreTheirFields : Prop :=
  ∀ (v : Word) (s : State),
    exec (.wrCtrl v) s = .next { s with rgd := { s.rgd with ctrl := BitVec.ofNat 19 v.toNat } } ∧
    exec (.wrThr v) s = .next { s with rgd := { s.rgd with thr := BitVec.ofNat 10 v.toNat } }

/-- R56, R137: a write to READY clears the bits written as 1, sets none, and changes nothing else. -/
def Obligations.ReadyWriteClearsTheBitsWrittenAsOne : Prop :=
  ∀ (v : Word) (s : State), ∃ w : BitVec 6,
    exec (.wrReady v) s = .next { s with rgd := { s.rgd with ready := w } } ∧
    ∀ i, i < 6 → w.getLsbD i = (s.rgd.ready.getLsbD i && !v.getLsbD i)

/-- R53, R136: a write to an RO register, to a buffer window or to a reserved offset changes no state. -/
def Obligations.ReadOnlyAndReservedWritesAreIgnored : Prop :=
  ∀ (s : State) (v : Word) (off : Nat),
    exec (.wrPiStat v) s = .next s ∧ exec (.wrPtyStat v) s = .next s ∧ exec (.wrPsStat v) s = .next s ∧
    exec (.wrRtStat v) s = .next s ∧ exec (.wrCtStat v) s = .next s ∧ exec (.wrClass v) s = .next s ∧
    exec (.wrPsWin off v) s = .next s ∧ exec (.wrRtaWin off v) s = .next s ∧ exec (.wrRtbWin off v) s = .next s ∧
    exec (.wrReserved off v) s = .next s

/-- R53, R54, R55: a register reads back what was written to it, with its reserved bits 0. -/
def Obligations.RegistersReadBackTheirWritableBits : Prop :=
  ∀ (v : Word) (s : State),
    let pair (wr rd : Instr) (n : Nat) : Prop :=
      ∃ t u, exec wr s = .next t ∧ exec rd t = .next u ∧
        ∃ w : Word, w.toNat = v.toNat % 2 ^ n ∧ u.host.returned = w :: s.host.returned ∧ u.rgd = t.rgd
    pair (.wrInStatus v) .rdInStatus 8 ∧ pair (.wrInBlkA v) .rdInBlkA 16 ∧ pair (.wrInBlkB v) .rdInBlkB 16 ∧
    pair (.wrInBlkC v) .rdInBlkC 16 ∧ pair (.wrInBlkD v) .rdInBlkD 16 ∧ pair (.wrInErr v) .rdInErr 16 ∧
    pair (.wrCtrl v) .rdCtrl 19 ∧ pair (.wrThr v) .rdThr 10

/-- R63: a write to an input register, CTRL, THR or READY, done twice, leaves the state that doing it once leaves. -/
def Obligations.RegisterWritesAreIdempotent : Prop :=
  ∀ (v : Word) (i : Instr) (s t : State),
    i ∈ [Instr.wrInStatus v, .wrInBlkA v, .wrInBlkB v, .wrInBlkC v, .wrInBlkD v, .wrInErr v, .wrCtrl v, .wrThr v,
      .wrReady v] →
    exec i s = .next t → exec i t = .next t

/-- R81, R82, R83: the classifier's three functions, as numbers. -/
def Obligations.ClassifierReadsItsFields : Prop :=
  ∀ g : Inputs,
    (errorLevel g .A).toNat = g.err.toNat / 64 % 4 ∧ (errorLevel g .B).toNat = g.err.toNat / 16 % 4 ∧
    (errorLevel g .C).toNat = g.err.toNat / 4 % 4 ∧ (errorLevel g .D).toNat = g.err.toNat % 4 ∧
    (protocolVersion g = .B ↔ g.status.toNat / 16 % 2 = 1) ∧ (groupType g).toNat = g.blkB.toNat / 4096

/-- R85: the acceptance test compares unsigned numbers; a level equal to the threshold is accepted (R86). -/
def Obligations.AcceptanceComparesUnsigned : Prop :=
  ∀ lvl thr : BitVec 2, accept lvl thr = true ↔ lvl.toNat ≤ thr.toNat

/-- R121, R36: FEED records the classification in CLASS, whatever the error level of block B. -/
def Obligations.FeedRecordsTheClassification : Prop :=
  ∀ s : State, ∃ t, exec .feed s = .next t ∧
    t.rgd.cls.toNat =
      s.rgd.inp.status.toNat / 16 % 2 + 2 + 16 * (s.rgd.inp.blkB.toNat / 4096) + 256 * s.rgd.inp.level .A +
        1024 * s.rgd.inp.level .B + 4096 * s.rgd.inp.level .C + 16384 * s.rgd.inp.level .D

/-- R126: a FEED writes no input register, no CTRL field and no THR field; and it returns nothing to the host. -/
def Obligations.FeedWritesNoInputAndNoConfiguration : Prop :=
  ∀ s : State, ∃ t, exec .feed s = .next t ∧ t.rgd.inp = s.rgd.inp ∧ t.rgd.ctrl = s.rgd.ctrl ∧
    t.rgd.thr = s.rgd.thr ∧ t.host = s.host

/-- R65, R66, R18, R20: two machines whose input registers differ only in ignored bits decode the same record. -/
def Obligations.IgnoredInputBitsHaveNoEffect : Prop :=
  ∀ s s' : State, s.rgd.inp.SameUsedBits s'.rgd.inp → s'.rgd.ctrl = s.rgd.ctrl → s'.rgd.thr = s.rgd.thr →
    s.rgd.SameRecord s'.rgd →
    ∃ t t', exec .feed s = .next t ∧ exec .feed s' = .next t' ∧ t.rgd.SameRecord t'.rgd

/-- R88, R89, R90, R91: what FEED does to the PI group and RDY_PI. -/
def Obligations.FeedExtractsIdentification : Prop :=
  ∀ s : State, ∃ t, exec .feed s = .next t ∧
    ∀ (cand : Half) (lvl : Nat),
      ((s.rgd.inp.piFromC ∧ cand = s.rgd.inp.blkC ∧ lvl = s.rgd.inp.level .C) ∨
        (¬s.rgd.inp.piFromC ∧ cand = s.rgd.inp.blkA ∧ lvl = s.rgd.inp.level .A)) →
      (lvl ≤ s.rgd.thr.toNat % 4 ∧ (s.rgd.pi.avail = false ∨ cand ≠ s.rgd.pi.shadow) →
        t.rgd.pi.code = cand ∧ t.rgd.pi.shadow = cand ∧ t.rgd.pi.avail = true ∧ t.rgd.ready.getLsbD 0 = true) ∧
      (¬(lvl ≤ s.rgd.thr.toNat % 4 ∧ (s.rgd.pi.avail = false ∨ cand ≠ s.rgd.pi.shadow)) →
        t.rgd.pi = s.rgd.pi ∧ t.rgd.ready.getLsbD 0 = s.rgd.ready.getLsbD 0)

/-- R93: block C reaches the PI group only under version B with a lower level than block A, at or below THR_PI; under
version A neither block C nor its level has any influence on the PI group. -/
def Obligations.BlockCIdentifiesOnlyUnderVersionB : Prop :=
  (∀ s t : State, exec .feed s = .next t → t.rgd.pi ≠ s.rgd.pi → t.rgd.pi.code ≠ s.rgd.inp.blkA →
    t.rgd.pi.code = s.rgd.inp.blkC ∧ s.rgd.inp.IsVersionB ∧ s.rgd.inp.level .C < s.rgd.inp.level .A ∧
    s.rgd.inp.level .C ≤ s.rgd.thr.toNat % 4) ∧
  (∀ (s : State) (c : Half) (e : BitVec 16), ¬s.rgd.inp.IsVersionB → e.toNat / 64 % 4 = s.rgd.inp.level .A →
    ∃ t t', exec .feed s = .next t ∧
      exec .feed { s with rgd := { s.rgd with inp := { s.rgd.inp with blkC := c, err := e } } } = .next t' ∧
      t'.rgd.pi = t.rgd.pi)

/-- R94, R95, R96, R122: what FEED does to PTY and RDY_PTY, whatever the error level of block B. The place of the code,
IN_BLKB[9:5], is the spec's own choice from general knowledge (D14; log 10). -/
def Obligations.FeedExtractsProgramType : Prop :=
  ∀ s : State, ∃ t, exec .feed s = .next t ∧
    (s.rgd.ctrl.getLsbD 16 = true ∧ s.rgd.inp.ptyNumber ≠ 0 ∧ s.rgd.inp.ptyNumber ≠ s.rgd.pty.toNat →
      t.rgd.pty.toNat = s.rgd.inp.ptyNumber ∧ t.rgd.ready.getLsbD 1 = true) ∧
    (¬(s.rgd.ctrl.getLsbD 16 = true ∧ s.rgd.inp.ptyNumber ≠ 0 ∧ s.rgd.inp.ptyNumber ≠ s.rgd.pty.toNat) →
      t.rgd.pty = s.rgd.pty ∧ t.rgd.ready.getLsbD 1 = s.rgd.ready.getLsbD 1)

/-- R98, R99, R100, R123: what a FEED routed as type 0 does to the PS group and RDY_PS: the character write gated on
block D against THR_PS, then the change test over all eight characters. -/
def Obligations.FeedExtractsStationName : Prop :=
  ∀ s : State, s.rgd.RoutedAs 0 → ∃ t, exec .feed s = .next t ∧
    (∀ i, i < 9 → byteAt t.rgd.ps.buf i =
      if s.rgd.inp.level .D ≤ s.rgd.thr.toNat / 16 % 4 ∧ i = 2 * (s.rgd.inp.blkB.toNat % 4) then
        highByte s.rgd.inp.blkD
      else if s.rgd.inp.level .D ≤ s.rgd.thr.toNat / 16 % 4 ∧ i = 2 * (s.rgd.inp.blkB.toNat % 4) + 1 then
        lowByte s.rgd.inp.blkD
      else byteAt s.rgd.ps.buf i) ∧
    ((∃ i, i < 8 ∧ byteAt t.rgd.ps.buf i ≠ byteAt s.rgd.ps.shadow i) →
      t.rgd.ready.getLsbD 2 = true ∧ t.rgd.ps.avail = true ∧
      ∀ i, i < 8 → byteAt t.rgd.ps.shadow i = byteAt t.rgd.ps.buf i) ∧
    ((∀ i, i < 8 → byteAt t.rgd.ps.buf i = byteAt s.rgd.ps.shadow i) →
      t.rgd.ready.getLsbD 2 = s.rgd.ready.getLsbD 2 ∧ t.rgd.ps.avail = s.rgd.ps.avail ∧
      t.rgd.ps.shadow = s.rgd.ps.shadow)

/-- R102, R103, R104, R106, R108, R109: what a FEED of a version A group routed as type 2 does to the RT group and
RDY_RT. The two halves are gated apart, each on its own block; the other buffer and its mark stay; RT_SEL is written
always; an accepted half sets RDY_RT whether or not a character changed. -/
def Obligations.FeedExtractsRadioTextVersionA : Prop :=
  ∀ (s : State) (seg : Nat), s.rgd.RoutedAs 2 → ¬s.rgd.inp.IsVersionB → seg = s.rgd.inp.blkB.toNat % 16 →
    ∃ t, exec .feed s = .next t ∧ t.rgd.rt.sel = s.rgd.inp.selector ∧
      (∀ i, i < 65 → byteAt (t.rgd.rt.buf s.rgd.inp.selector) i =
        if s.rgd.Accepts .C 6 ∧ i = 4 * seg then highByte s.rgd.inp.blkC
        else if s.rgd.Accepts .C 6 ∧ i = 4 * seg + 1 then lowByte s.rgd.inp.blkC
        else if s.rgd.Accepts .D 6 ∧ i = 4 * seg + 2 then highByte s.rgd.inp.blkD
        else if s.rgd.Accepts .D 6 ∧ i = 4 * seg + 3 then lowByte s.rgd.inp.blkD
        else byteAt (s.rgd.rt.buf s.rgd.inp.selector) i) ∧
      (t.rgd.rt.hwm s.rgd.inp.selector).toInt =
        (if s.rgd.Accepts .D 6 then max (s.rgd.rt.hwm s.rgd.inp.selector).toInt (4 * seg + 4)
         else if s.rgd.Accepts .C 6 then max (s.rgd.rt.hwm s.rgd.inp.selector).toInt (4 * seg + 2)
         else (s.rgd.rt.hwm s.rgd.inp.selector).toInt) ∧
      (t.rgd.ready.getLsbD 3 = true ↔
        s.rgd.Accepts .C 6 ∨ s.rgd.Accepts .D 6 ∨ s.rgd.ready.getLsbD 3 = true) ∧
      t.rgd.rt.buf s.rgd.inp.selector.other = s.rgd.rt.buf s.rgd.inp.selector.other ∧
      t.rgd.rt.hwm s.rgd.inp.selector.other = s.rgd.rt.hwm s.rgd.inp.selector.other

/-- R102, R105, R106, R108, R109: what a FEED of a version B group routed as type 2 does to the RT group and RDY_RT:
two characters, from block D only. -/
def Obligations.FeedExtractsRadioTextVersionB : Prop :=
  ∀ (s : State) (seg : Nat), s.rgd.RoutedAs 2 → s.rgd.inp.IsVersionB → seg = s.rgd.inp.blkB.toNat % 16 →
    ∃ t, exec .feed s = .next t ∧ t.rgd.rt.sel = s.rgd.inp.selector ∧
      (∀ i, i < 65 → byteAt (t.rgd.rt.buf s.rgd.inp.selector) i =
        if s.rgd.Accepts .D 6 ∧ i = 2 * seg then highByte s.rgd.inp.blkD
        else if s.rgd.Accepts .D 6 ∧ i = 2 * seg + 1 then lowByte s.rgd.inp.blkD
        else byteAt (s.rgd.rt.buf s.rgd.inp.selector) i) ∧
      (t.rgd.rt.hwm s.rgd.inp.selector).toInt =
        (if s.rgd.Accepts .D 6 then max (s.rgd.rt.hwm s.rgd.inp.selector).toInt (2 * seg + 2)
         else (s.rgd.rt.hwm s.rgd.inp.selector).toInt) ∧
      (t.rgd.ready.getLsbD 3 = true ↔ s.rgd.Accepts .D 6 ∨ s.rgd.ready.getLsbD 3 = true) ∧
      t.rgd.rt.buf s.rgd.inp.selector.other = s.rgd.rt.buf s.rgd.inp.selector.other ∧
      t.rgd.rt.hwm s.rgd.inp.selector.other = s.rgd.rt.hwm s.rgd.inp.selector.other

/-- R111, R112, R113, R114, R115, R116, R117, R118: what FEED does to the clock group and RDY_CT: all three written or
none; the hour is the raw hour plus the offset, wrapped into 0..23; the minute is stored as received. That the clock
group is type 4 of version A, and the places of its fields, are the spec's own choice from general knowledge (D12, D15;
log 10). -/
def Obligations.FeedExtractsClock : Prop :=
  ∀ s : State, ∃ t, exec .feed s = .next t ∧
    (s.rgd.RoutedAs 4 ∧ ¬s.rgd.inp.IsVersionB ∧ s.rgd.Accepts .C 8 ∧ s.rgd.Accepts .D 8 ∧
        ¬(s.rgd.ctrl.getLsbD 18 = true ∧ 59 < s.rgd.inp.minuteNumber) →
      t.rgd.ct.hour.toInt = (s.rgd.inp.hourNumber + s.rgd.inp.offsetNumber) % 24 ∧
      t.rgd.ct.min.toNat = s.rgd.inp.minuteNumber ∧ t.rgd.ready.getLsbD 4 = true) ∧
    (¬(s.rgd.RoutedAs 4 ∧ ¬s.rgd.inp.IsVersionB ∧ s.rgd.Accepts .C 8 ∧ s.rgd.Accepts .D 8 ∧
        ¬(s.rgd.ctrl.getLsbD 18 = true ∧ 59 < s.rgd.inp.minuteNumber)) →
      t.rgd.ct = s.rgd.ct ∧ t.rgd.ready.getLsbD 4 = s.rgd.ready.getLsbD 4)

/-- R123, R124: a FEED that does not route to an extractor leaves that extractor's group and its ready bit alone, so at
most one of the three groups changes; with the reset value of CTRL the clock group never does. -/
def Obligations.FeedRunsAtMostOneRoutedExtractor : Prop :=
  ∀ s : State, ∃ t, exec .feed s = .next t ∧
    (¬s.rgd.RoutedAs 0 → t.rgd.ps = s.rgd.ps ∧ t.rgd.ready.getLsbD 2 = s.rgd.ready.getLsbD 2) ∧
    (¬s.rgd.RoutedAs 2 → t.rgd.rt = s.rgd.rt ∧ t.rgd.ready.getLsbD 3 = s.rgd.ready.getLsbD 3) ∧
    (¬s.rgd.RoutedAs 4 → t.rgd.ct = s.rgd.ct ∧ t.rgd.ready.getLsbD 4 = s.rgd.ready.getLsbD 4) ∧
    (t.rgd.ps ≠ s.rgd.ps → t.rgd.rt = s.rgd.rt ∧ t.rgd.ct = s.rgd.ct) ∧
    (t.rgd.rt ≠ s.rgd.rt → t.rgd.ps = s.rgd.ps ∧ t.rgd.ct = s.rgd.ct) ∧
    (s.rgd.ctrl = 0x20005#19 → t.rgd.ct = s.rgd.ct)

/-- R125: a FEED clears no READY bit and never sets bit 5 (R35), and the order of the extractors changes no result. -/
def Obligations.ExtractorOrderDoesNotMatter : Prop :=
  (∀ s : State, ∃ t, exec .feed s = .next t ∧
    (∀ i, s.rgd.ready.getLsbD i = true → t.rgd.ready.getLsbD i = true) ∧
    t.rgd.ready.getLsbD 5 = s.rgd.ready.getLsbD 5) ∧
  (∀ r : Rgd, piExtract (ptyStage r) = ptyStage (piExtract r) ∧ dispatch (ptyStage r) = ptyStage (dispatch r) ∧
    dispatch (piExtract r) = piExtract (dispatch r))

/-- R119: for every raw hour and offset the unit gives the Euclidean remainder of the sum by 24; two turns of each loop
are enough, and only one of the loops runs. -/
def Obligations.OffsetUnitIsTheEuclideanRemainder : Prop :=
  (∀ r o : Int, ofsNormalize r o = (r + o) % 24) ∧
  (∀ r o : Int, 0 ≤ r → r ≤ 31 → -31 ≤ o → o ≤ 31 →
    ofsNormalize r o = subDays 2 (addDays 2 (r + o)) ∧
    (r + o < 0 → ofsNormalize r o = addDays 2 (r + o)) ∧ (0 ≤ r + o → ofsNormalize r o = subDays 2 (r + o)))

/-- R110: a group never reads or writes the other RT buffer. Two machines that differ only in the buffer the group does
not select, and its mark, still differ there only, and there by as much, after the FEED. -/
def Obligations.RadioTextBuffersAreIndependent : Prop :=
  ∀ (s : State) (b : Vector Byte 65) (m : BitVec 8),
    let swap (r : Rgd) : Rgd := { r with rt := r.rt.setHalf s.rgd.inp.selector.other b m }
    ∃ t, exec .feed s = .next t ∧
      t.rgd.rt.buf s.rgd.inp.selector.other = s.rgd.rt.buf s.rgd.inp.selector.other ∧
      t.rgd.rt.hwm s.rgd.inp.selector.other = s.rgd.rt.hwm s.rgd.inp.selector.other ∧
      exec .feed { s with rgd := swap s.rgd } = .next { t with rgd := swap t.rgd }

/-- R92, R101, 90_conflicts.md C1: feeding the same group again, with READY bits cleared between, changes nothing of PI,
PTY and PS and sets none of their ready bits; RT and the clock set theirs again where they set it before (R106, R115). -/
def Obligations.RepeatedGroupIsQuietExceptTextAndClock : Prop :=
  ∀ (s : State) (v : Word), ∃ t u w,
    exec .feed s = .next t ∧ exec (.wrReady v) t = .next u ∧ exec .feed u = .next w ∧
    w.rgd.pi = t.rgd.pi ∧ w.rgd.pty = t.rgd.pty ∧ w.rgd.ps = t.rgd.ps ∧ w.rgd.rt = t.rgd.rt ∧ w.rgd.ct = t.rgd.ct ∧
    w.rgd.cls = t.rgd.cls ∧
    (∀ i, i < 3 → w.rgd.ready.getLsbD i = u.rgd.ready.getLsbD i) ∧
    (∀ i, i = 3 ∨ i = 4 → s.rgd.ready.getLsbD i = false → w.rgd.ready.getLsbD i = t.rgd.ready.getLsbD i)

/-- R19, R21, R22, R126: only a host write to the register itself changes an input register, CTRL or THR; no command
does. -/
def Obligations.OnlyTheirOwnWritesChangeConfigurationAndInputs : Prop :=
  ∀ (i : Instr) (s t : State), exec i s = .next t →
    (t.rgd.ctrl ≠ s.rgd.ctrl → ∃ v, i = .wrCtrl v) ∧
    (t.rgd.thr ≠ s.rgd.thr → ∃ v, i = .wrThr v) ∧
    (t.rgd.inp.status ≠ s.rgd.inp.status → ∃ v, i = .wrInStatus v) ∧
    (t.rgd.inp.blkA ≠ s.rgd.inp.blkA → ∃ v, i = .wrInBlkA v) ∧
    (t.rgd.inp.blkB ≠ s.rgd.inp.blkB → ∃ v, i = .wrInBlkB v) ∧
    (t.rgd.inp.blkC ≠ s.rgd.inp.blkC → ∃ v, i = .wrInBlkC v) ∧
    (t.rgd.inp.blkD ≠ s.rgd.inp.blkD → ∃ v, i = .wrInBlkD v) ∧
    (t.rgd.inp.err ≠ s.rgd.inp.err → ∃ v, i = .wrInErr v)

/-- R24, R28, R97, R120: only the commands INIT and SRESET, run through CMD or named as instructions, clear an
availability flag, bring PTY back to 0 or bring a clock field back to -1; SRESET does so for PS_AVAIL and PTY only with
CTRL.SR_PS set. -/
def Obligations.OnlyResetCommandsTakeAvailabilityBack : Prop :=
  ∀ (i : Instr) (s t : State), exec i s = .next t →
    let isInit := i = .init ∨ i = .wrCmd 0x00000001#32
    let isSreset := i = .sreset ∨ i = .wrCmd 0x00000002#32
    (s.rgd.pi.avail = true → t.rgd.pi.avail = false → isInit ∨ isSreset) ∧
    (s.rgd.ps.avail = true → t.rgd.ps.avail = false → isInit ∨ (isSreset ∧ s.rgd.ctrl.getLsbD 17 = true)) ∧
    (s.rgd.pty ≠ 0#5 → t.rgd.pty = 0#5 → isInit ∨ (isSreset ∧ s.rgd.ctrl.getLsbD 17 = true)) ∧
    (s.rgd.ct.hour.toInt ≠ -1 → t.rgd.ct.hour.toInt = -1 → isInit ∨ isSreset) ∧
    (s.rgd.ct.min.toInt ≠ -1 → t.rgd.ct.min.toInt = -1 → isInit ∨ isSreset)

/-- R38: a mark never decreases, but for INIT and SRESET, which set it to -1. -/
def Obligations.MarksNeverDecrease : Prop :=
  ∀ (i : Instr) (s t : State) (b : RtSel), exec i s = .next t →
    (s.rgd.rt.hwm b).toInt ≤ (t.rgd.rt.hwm b).toInt ∨
    ((t.rgd.rt.hwm b).toInt = -1 ∧
      (i = .init ∨ i = .sreset ∨ i = .wrCmd 0x00000001#32 ∨ i = .wrCmd 0x00000002#32))

/-- R25, R29, R48: no instruction returns anything that depends on PI_SHADOW or PS_SHADOW. -/
def Obligations.NoReadShowsTheShadows : Prop :=
  ∀ (i : Instr) (s s' : State), s'.host = s.host → s.rgd.SameButShadows s'.rgd →
    ∃ t t', exec i s = .next t ∧ exec i s' = .next t' ∧ t'.host = t.host

/-- R37: the terminators stay 0x00, through every step. -/
def Obligations.TerminatorsStay : Prop :=
  ∀ s t : State, s.rgd.Terminated → step s = .next t → t.rgd.Terminated

/-- R40, R41: the shadows stay equal to the visible values, and PI stays 0x0000 while it is not available. -/
def Obligations.ShadowsFollowTheVisibleValues : Prop :=
  (∀ s t : State, s.rgd.PiShadowed → step s = .next t → t.rgd.PiShadowed) ∧
  (∀ s t : State, s.rgd.PsShadowed → step s = .next t → t.rgd.PsShadowed)

/-- R39: the clock fields stay both -1 or both in range; and a step with CTRL.CT_MINCHK set keeps the minute at most 59. -/
def Obligations.ClockFieldsStayInRange : Prop :=
  (∀ s t : State, s.rgd.ClockValid → step s = .next t → t.rgd.ClockValid) ∧
  (∀ s t : State, s.rgd.ctrl.getLsbD 18 = true → s.rgd.ct.min.toInt ≤ 59 → step s = .next t →
    t.rgd.ct.min.toInt ≤ 59)

/-- R33, R107, R132: every mark stays -1 or even in 2..64, and every character at or beyond its mark stays a space. -/
def Obligations.MarksBoundTheText : Prop :=
  ∀ s t : State, s.rgd.MarksBoundText → step s = .next t → t.rgd.MarksBoundText

/-- R42: while PS_AVAIL is 0, a FEED sets it exactly where it leaves a character other than a space; no FEED clears it. -/
def Obligations.NameAvailabilityRisesWithTheFirstCharacter : Prop :=
  ∀ s : State, s.rgd.Inv → ∃ t, exec .feed s = .next t ∧
    (s.rgd.ps.avail = false → (t.rgd.ps.avail = true ↔ ∃ i, i < 8 ∧ byteAt t.rgd.ps.buf i ≠ 0x20#8)) ∧
    (s.rgd.ps.avail = true → t.rgd.ps.avail = true)

/-- R37, R39 to R42, R33, R35, R36: every step, from any state that meets the invariants of 10_state.md, keeps them all. -/
def Obligations.EveryStepKeepsTheInvariants : Prop :=
  ∀ s t : State, s.rgd.Inv → step s = .next t → t.rgd.Inv

/-- The invariants of 10_state.md hold at State.reset. -/
def Obligations.ResetMeetsTheInvariants : Prop := State.reset.rgd.Inv

/-- R79: the seven writes of the pseudo-instruction `feed` do what one FEED does with the six input registers set to its
operands: the result depends on no earlier group's inputs. -/
def Obligations.FeedPseudoInstructionFeedsItsOperands : Prop :=
  ∀ (s : State) (st : Byte) (a b c d e : Half) (rest : List HostEvent),
    s.host.pending = feedWrites (0x200 * s.host.pBaseBlock) st a b c d e ++ rest →
    Host.Core.run Sys2Proof.core 7 s =
      exec .feed
        { rgd := { s.rgd with inp := { status := st, blkA := a, blkB := b, blkC := c, blkD := d, err := e } }
          host := { s.host with pending := rest } }

/-- R8, R46: nothing but the placement depends on P_BASE. A machine whose window lies `k` blocks higher, with its
pending accesses as much higher, takes the same step. That a hardware reset leaves the host port is the choice of log 7. -/
def Obligations.PlacementOfTheWindowDoesNotMatter : Prop :=
  ∀ (k : Nat) (s t : State), step s = .next t → step (s.shift k) = .next (t.shift k)
end

