-- ==== Sys2Proof/Laws/State.lean ====
section
/-! SUPPORT. One lemma for each field of each update of the state, true by rfl, so that no proof unfolds an update. The
lemmas on READY are no simp lemmas: raise_getLsbD and clearReady_getLsbD (Laws/Ops.lean) say its bits. -/

namespace Sys2Proof.Machine

@[simp] theorem Rgd.raise_inp (b : ReadyBit) (r : Rgd) : (r.raise b).inp = r.inp := rfl
@[simp] theorem Rgd.raise_ctrl (b : ReadyBit) (r : Rgd) : (r.raise b).ctrl = r.ctrl := rfl
@[simp] theorem Rgd.raise_thr (b : ReadyBit) (r : Rgd) : (r.raise b).thr = r.thr := rfl
@[simp] theorem Rgd.raise_pi (b : ReadyBit) (r : Rgd) : (r.raise b).pi = r.pi := rfl
@[simp] theorem Rgd.raise_pty (b : ReadyBit) (r : Rgd) : (r.raise b).pty = r.pty := rfl
@[simp] theorem Rgd.raise_ps (b : ReadyBit) (r : Rgd) : (r.raise b).ps = r.ps := rfl
@[simp] theorem Rgd.raise_rt (b : ReadyBit) (r : Rgd) : (r.raise b).rt = r.rt := rfl
@[simp] theorem Rgd.raise_ct (b : ReadyBit) (r : Rgd) : (r.raise b).ct = r.ct := rfl
theorem Rgd.raise_ready (b : ReadyBit) (r : Rgd) : (r.raise b).ready = r.ready ||| (1#6 <<< b.index) := rfl
@[simp] theorem Rgd.raise_cls (b : ReadyBit) (r : Rgd) : (r.raise b).cls = r.cls := rfl

@[simp] theorem Rgd.clearReady_inp (v : Word) (r : Rgd) : (r.clearReady v).inp = r.inp := rfl
@[simp] theorem Rgd.clearReady_ctrl (v : Word) (r : Rgd) : (r.clearReady v).ctrl = r.ctrl := rfl
@[simp] theorem Rgd.clearReady_thr (v : Word) (r : Rgd) : (r.clearReady v).thr = r.thr := rfl
@[simp] theorem Rgd.clearReady_pi (v : Word) (r : Rgd) : (r.clearReady v).pi = r.pi := rfl
@[simp] theorem Rgd.clearReady_pty (v : Word) (r : Rgd) : (r.clearReady v).pty = r.pty := rfl
@[simp] theorem Rgd.clearReady_ps (v : Word) (r : Rgd) : (r.clearReady v).ps = r.ps := rfl
@[simp] theorem Rgd.clearReady_rt (v : Word) (r : Rgd) : (r.clearReady v).rt = r.rt := rfl
@[simp] theorem Rgd.clearReady_ct (v : Word) (r : Rgd) : (r.clearReady v).ct = r.ct := rfl
@[simp] theorem Rgd.clearReady_ready (v : Word) (r : Rgd) : (r.clearReady v).ready = r.ready &&& ~~~(v.extractLsb' 0 6) := rfl
@[simp] theorem Rgd.clearReady_cls (v : Word) (r : Rgd) : (r.clearReady v).cls = r.cls := rfl

@[simp] theorem Rgd.initialPI_inp (r : Rgd) : (r.initialPI).inp = r.inp := rfl
@[simp] theorem Rgd.initialPI_ctrl (r : Rgd) : (r.initialPI).ctrl = r.ctrl := rfl
@[simp] theorem Rgd.initialPI_thr (r : Rgd) : (r.initialPI).thr = r.thr := rfl
@[simp] theorem Rgd.initialPI_pi (r : Rgd) : (r.initialPI).pi = PiGroup.initial := rfl
@[simp] theorem Rgd.initialPI_pty (r : Rgd) : (r.initialPI).pty = r.pty := rfl
@[simp] theorem Rgd.initialPI_ps (r : Rgd) : (r.initialPI).ps = r.ps := rfl
@[simp] theorem Rgd.initialPI_rt (r : Rgd) : (r.initialPI).rt = r.rt := rfl
@[simp] theorem Rgd.initialPI_ct (r : Rgd) : (r.initialPI).ct = r.ct := rfl
@[simp] theorem Rgd.initialPI_ready (r : Rgd) : (r.initialPI).ready = r.ready := rfl
@[simp] theorem Rgd.initialPI_cls (r : Rgd) : (r.initialPI).cls = r.cls := rfl

@[simp] theorem Rgd.initialPTY_inp (r : Rgd) : (r.initialPTY).inp = r.inp := rfl
@[simp] theorem Rgd.initialPTY_ctrl (r : Rgd) : (r.initialPTY).ctrl = r.ctrl := rfl
@[simp] theorem Rgd.initialPTY_thr (r : Rgd) : (r.initialPTY).thr = r.thr := rfl
@[simp] theorem Rgd.initialPTY_pi (r : Rgd) : (r.initialPTY).pi = r.pi := rfl
@[simp] theorem Rgd.initialPTY_pty (r : Rgd) : (r.initialPTY).pty = 0#5 := rfl
@[simp] theorem Rgd.initialPTY_ps (r : Rgd) : (r.initialPTY).ps = r.ps := rfl
@[simp] theorem Rgd.initialPTY_rt (r : Rgd) : (r.initialPTY).rt = r.rt := rfl
@[simp] theorem Rgd.initialPTY_ct (r : Rgd) : (r.initialPTY).ct = r.ct := rfl
@[simp] theorem Rgd.initialPTY_ready (r : Rgd) : (r.initialPTY).ready = r.ready := rfl
@[simp] theorem Rgd.initialPTY_cls (r : Rgd) : (r.initialPTY).cls = r.cls := rfl

@[simp] theorem Rgd.initialPS_inp (r : Rgd) : (r.initialPS).inp = r.inp := rfl
@[simp] theorem Rgd.initialPS_ctrl (r : Rgd) : (r.initialPS).ctrl = r.ctrl := rfl
@[simp] theorem Rgd.initialPS_thr (r : Rgd) : (r.initialPS).thr = r.thr := rfl
@[simp] theorem Rgd.initialPS_pi (r : Rgd) : (r.initialPS).pi = r.pi := rfl
@[simp] theorem Rgd.initialPS_pty (r : Rgd) : (r.initialPS).pty = r.pty := rfl
@[simp] theorem Rgd.initialPS_ps (r : Rgd) : (r.initialPS).ps = PsGroup.initial := rfl
@[simp] theorem Rgd.initialPS_rt (r : Rgd) : (r.initialPS).rt = r.rt := rfl
@[simp] theorem Rgd.initialPS_ct (r : Rgd) : (r.initialPS).ct = r.ct := rfl
@[simp] theorem Rgd.initialPS_ready (r : Rgd) : (r.initialPS).ready = r.ready := rfl
@[simp] theorem Rgd.initialPS_cls (r : Rgd) : (r.initialPS).cls = r.cls := rfl

@[simp] theorem Rgd.initialRT_inp (r : Rgd) : (r.initialRT).inp = r.inp := rfl
@[simp] theorem Rgd.initialRT_ctrl (r : Rgd) : (r.initialRT).ctrl = r.ctrl := rfl
@[simp] theorem Rgd.initialRT_thr (r : Rgd) : (r.initialRT).thr = r.thr := rfl
@[simp] theorem Rgd.initialRT_pi (r : Rgd) : (r.initialRT).pi = r.pi := rfl
@[simp] theorem Rgd.initialRT_pty (r : Rgd) : (r.initialRT).pty = r.pty := rfl
@[simp] theorem Rgd.initialRT_ps (r : Rgd) : (r.initialRT).ps = r.ps := rfl
@[simp] theorem Rgd.initialRT_rt (r : Rgd) : (r.initialRT).rt = RtGroup.initial := rfl
@[simp] theorem Rgd.initialRT_ct (r : Rgd) : (r.initialRT).ct = r.ct := rfl
@[simp] theorem Rgd.initialRT_ready (r : Rgd) : (r.initialRT).ready = r.ready := rfl
@[simp] theorem Rgd.initialRT_cls (r : Rgd) : (r.initialRT).cls = r.cls := rfl

@[simp] theorem Rgd.initialCT_inp (r : Rgd) : (r.initialCT).inp = r.inp := rfl
@[simp] theorem Rgd.initialCT_ctrl (r : Rgd) : (r.initialCT).ctrl = r.ctrl := rfl
@[simp] theorem Rgd.initialCT_thr (r : Rgd) : (r.initialCT).thr = r.thr := rfl
@[simp] theorem Rgd.initialCT_pi (r : Rgd) : (r.initialCT).pi = r.pi := rfl
@[simp] theorem Rgd.initialCT_pty (r : Rgd) : (r.initialCT).pty = r.pty := rfl
@[simp] theorem Rgd.initialCT_ps (r : Rgd) : (r.initialCT).ps = r.ps := rfl
@[simp] theorem Rgd.initialCT_rt (r : Rgd) : (r.initialCT).rt = r.rt := rfl
@[simp] theorem Rgd.initialCT_ct (r : Rgd) : (r.initialCT).ct = CtGroup.initial := rfl
@[simp] theorem Rgd.initialCT_ready (r : Rgd) : (r.initialCT).ready = r.ready := rfl
@[simp] theorem Rgd.initialCT_cls (r : Rgd) : (r.initialCT).cls = r.cls := rfl

@[simp] theorem Rgd.initialRDY_inp (r : Rgd) : (r.initialRDY).inp = r.inp := rfl
@[simp] theorem Rgd.initialRDY_ctrl (r : Rgd) : (r.initialRDY).ctrl = r.ctrl := rfl
@[simp] theorem Rgd.initialRDY_thr (r : Rgd) : (r.initialRDY).thr = r.thr := rfl
@[simp] theorem Rgd.initialRDY_pi (r : Rgd) : (r.initialRDY).pi = r.pi := rfl
@[simp] theorem Rgd.initialRDY_pty (r : Rgd) : (r.initialRDY).pty = r.pty := rfl
@[simp] theorem Rgd.initialRDY_ps (r : Rgd) : (r.initialRDY).ps = r.ps := rfl
@[simp] theorem Rgd.initialRDY_rt (r : Rgd) : (r.initialRDY).rt = r.rt := rfl
@[simp] theorem Rgd.initialRDY_ct (r : Rgd) : (r.initialRDY).ct = r.ct := rfl
@[simp] theorem Rgd.initialRDY_ready (r : Rgd) : (r.initialRDY).ready = 0b000000#6 := rfl
@[simp] theorem Rgd.initialRDY_cls (r : Rgd) : (r.initialRDY).cls = r.cls := rfl

@[simp] theorem Rgd.initialRecord_inp (r : Rgd) : (r.initialRecord).inp = r.inp := rfl
@[simp] theorem Rgd.initialRecord_ctrl (r : Rgd) : (r.initialRecord).ctrl = r.ctrl := rfl
@[simp] theorem Rgd.initialRecord_thr (r : Rgd) : (r.initialRecord).thr = r.thr := rfl
@[simp] theorem Rgd.initialRecord_pi (r : Rgd) : (r.initialRecord).pi = PiGroup.initial := rfl
@[simp] theorem Rgd.initialRecord_pty (r : Rgd) : (r.initialRecord).pty = 0#5 := rfl
@[simp] theorem Rgd.initialRecord_ps (r : Rgd) : (r.initialRecord).ps = PsGroup.initial := rfl
@[simp] theorem Rgd.initialRecord_rt (r : Rgd) : (r.initialRecord).rt = RtGroup.initial := rfl
@[simp] theorem Rgd.initialRecord_ct (r : Rgd) : (r.initialRecord).ct = CtGroup.initial := rfl
@[simp] theorem Rgd.initialRecord_ready (r : Rgd) : (r.initialRecord).ready = 0b000000#6 := rfl
@[simp] theorem Rgd.initialRecord_cls (r : Rgd) : (r.initialRecord).cls = r.cls := rfl

@[simp] theorem init_inp (r : Rgd) : (init r).inp = r.inp := rfl
@[simp] theorem init_ctrl (r : Rgd) : (init r).ctrl = r.ctrl := rfl
@[simp] theorem init_thr (r : Rgd) : (init r).thr = r.thr := rfl
@[simp] theorem init_pi (r : Rgd) : (init r).pi = PiGroup.initial := rfl
@[simp] theorem init_pty (r : Rgd) : (init r).pty = 0#5 := rfl
@[simp] theorem init_ps (r : Rgd) : (init r).ps = PsGroup.initial := rfl
@[simp] theorem init_rt (r : Rgd) : (init r).rt = RtGroup.initial := rfl
@[simp] theorem init_ct (r : Rgd) : (init r).ct = CtGroup.initial := rfl
@[simp] theorem init_ready (r : Rgd) : (init r).ready = 0b000000#6 := rfl
@[simp] theorem init_cls (r : Rgd) : (init r).cls = 0x0000#16 := rfl

@[simp] theorem classify_inp (r : Rgd) : (classify r).inp = r.inp := rfl
@[simp] theorem classify_ctrl (r : Rgd) : (classify r).ctrl = r.ctrl := rfl
@[simp] theorem classify_thr (r : Rgd) : (classify r).thr = r.thr := rfl
@[simp] theorem classify_pi (r : Rgd) : (classify r).pi = r.pi := rfl
@[simp] theorem classify_pty (r : Rgd) : (classify r).pty = r.pty := rfl
@[simp] theorem classify_ps (r : Rgd) : (classify r).ps = r.ps := rfl
@[simp] theorem classify_rt (r : Rgd) : (classify r).rt = r.rt := rfl
@[simp] theorem classify_ct (r : Rgd) : (classify r).ct = r.ct := rfl
@[simp] theorem classify_ready (r : Rgd) : (classify r).ready = r.ready := rfl
@[simp] theorem classify_cls (r : Rgd) : (classify r).cls = classWord r.inp := rfl

@[simp] theorem rtSelect_inp (s : RtSel) (r : Rgd) : (rtSelect s r).inp = r.inp := rfl
@[simp] theorem rtSelect_ctrl (s : RtSel) (r : Rgd) : (rtSelect s r).ctrl = r.ctrl := rfl
@[simp] theorem rtSelect_thr (s : RtSel) (r : Rgd) : (rtSelect s r).thr = r.thr := rfl
@[simp] theorem rtSelect_pi (s : RtSel) (r : Rgd) : (rtSelect s r).pi = r.pi := rfl
@[simp] theorem rtSelect_pty (s : RtSel) (r : Rgd) : (rtSelect s r).pty = r.pty := rfl
@[simp] theorem rtSelect_ps (s : RtSel) (r : Rgd) : (rtSelect s r).ps = r.ps := rfl
@[simp] theorem rtSelect_rt (s : RtSel) (r : Rgd) : (rtSelect s r).rt = { r.rt with sel := s } := rfl
@[simp] theorem rtSelect_ct (s : RtSel) (r : Rgd) : (rtSelect s r).ct = r.ct := rfl
@[simp] theorem rtSelect_ready (s : RtSel) (r : Rgd) : (rtSelect s r).ready = r.ready := rfl
@[simp] theorem rtSelect_cls (s : RtSel) (r : Rgd) : (rtSelect s r).cls = r.cls := rfl

@[simp] theorem rtWrite_inp (s : RtSel) (i : Nat) (w : Half) (r : Rgd) :
    (rtWrite s i w r).inp = r.inp := rfl
@[simp] theorem rtWrite_ctrl (s : RtSel) (i : Nat) (w : Half) (r : Rgd) :
    (rtWrite s i w r).ctrl = r.ctrl := rfl
@[simp] theorem rtWrite_thr (s : RtSel) (i : Nat) (w : Half) (r : Rgd) :
    (rtWrite s i w r).thr = r.thr := rfl
@[simp] theorem rtWrite_pi (s : RtSel) (i : Nat) (w : Half) (r : Rgd) :
    (rtWrite s i w r).pi = r.pi := rfl
@[simp] theorem rtWrite_pty (s : RtSel) (i : Nat) (w : Half) (r : Rgd) :
    (rtWrite s i w r).pty = r.pty := rfl
@[simp] theorem rtWrite_ps (s : RtSel) (i : Nat) (w : Half) (r : Rgd) :
    (rtWrite s i w r).ps = r.ps := rfl
@[simp] theorem rtWrite_rt (s : RtSel) (i : Nat) (w : Half) (r : Rgd) :
    (rtWrite s i w r).rt = r.rt.setHalf s (writeChars (r.rt.buf s) i w) (markRaise (r.rt.hwm s) (i + 2)) := rfl
@[simp] theorem rtWrite_ct (s : RtSel) (i : Nat) (w : Half) (r : Rgd) :
    (rtWrite s i w r).ct = r.ct := rfl
theorem rtWrite_ready (s : RtSel) (i : Nat) (w : Half) (r : Rgd) :
    (rtWrite s i w r).ready = r.ready ||| (1#6 <<< ReadyBit.rt.index) := rfl
@[simp] theorem rtWrite_cls (s : RtSel) (i : Nat) (w : Half) (r : Rgd) :
    (rtWrite s i w r).cls = r.cls := rfl

/-! The buffers by selector. -/

@[simp] theorem RtGroup.setHalf_sel (g : RtGroup) (s : RtSel) (b : Vector Byte 65) (m : BitVec 8) :
    (g.setHalf s b m).sel = g.sel := by cases s <;> rfl

@[simp] theorem RtGroup.setHalf_buf_self (g : RtGroup) (s : RtSel) (b : Vector Byte 65) (m : BitVec 8) :
    (g.setHalf s b m).buf s = b := by cases s <;> rfl

@[simp] theorem RtGroup.setHalf_hwm_self (g : RtGroup) (s : RtSel) (b : Vector Byte 65) (m : BitVec 8) :
    (g.setHalf s b m).hwm s = m := by cases s <;> rfl

@[simp] theorem RtGroup.setHalf_buf_other (g : RtGroup) (s : RtSel) (b : Vector Byte 65) (m : BitVec 8) :
    (g.setHalf s b m).buf s.other = g.buf s.other := by cases s <;> rfl

@[simp] theorem RtGroup.setHalf_hwm_other (g : RtGroup) (s : RtSel) (b : Vector Byte 65) (m : BitVec 8) :
    (g.setHalf s b m).hwm s.other = g.hwm s.other := by cases s <;> rfl

@[simp] theorem RtGroup.setHalf_setHalf (g : RtGroup) (s : RtSel) (b b' : Vector Byte 65) (m m' : BitVec 8) :
    (g.setHalf s b m).setHalf s b' m' = g.setHalf s b' m' := by cases s <;> rfl

@[simp] theorem RtGroup.sel_buf (g : RtGroup) (s t : RtSel) : ({ g with sel := t } : RtGroup).buf s = g.buf s := by
  cases s <;> rfl

@[simp] theorem RtGroup.sel_hwm (g : RtGroup) (s t : RtSel) : ({ g with sel := t } : RtGroup).hwm s = g.hwm s := by
  cases s <;> rfl

@[simp] theorem RtGroup.initial_hwm (s : RtSel) : RtGroup.initial.hwm s = Config.minusOne := by cases s <;> rfl

@[simp] theorem RtGroup.initial_buf (s : RtSel) : RtGroup.initial.buf s = RtGroup.blankBuf := by cases s <;> rfl

@[simp] theorem RtGroup.initial_sel : RtGroup.initial.sel = .A := rfl

/-- Every selector is the one given or the other. -/
theorem RtSel.eq_or_other (s b : RtSel) : b = s ∨ b = s.other := by cases s <;> cases b <;> simp [RtSel.other]

/-! The machine's updates. -/

@[simp] theorem State.onRgd_rgd (s : State) (f : Rgd → Rgd) : (s.onRgd f).rgd = f s.rgd := rfl
@[simp] theorem State.onRgd_host (s : State) (f : Rgd → Rgd) : (s.onRgd f).host = s.host := rfl
@[simp] theorem State.answer_rgd (s : State) (v : Word) : (s.answer v).rgd = s.rgd := rfl
@[simp] theorem State.answer_pBaseBlock (s : State) (v : Word) : (s.answer v).host.pBaseBlock = s.host.pBaseBlock := rfl
@[simp] theorem State.answer_pending (s : State) (v : Word) : (s.answer v).host.pending = s.host.pending := rfl
@[simp] theorem State.answer_returned (s : State) (v : Word) :
    (s.answer v).host.returned = v :: s.host.returned := rfl
@[simp] theorem State.taken_rgd (s : State) (rest : List HostEvent) : (s.taken rest).rgd = s.rgd := rfl
@[simp] theorem State.taken_pBaseBlock (s : State) (rest : List HostEvent) :
    (s.taken rest).host.pBaseBlock = s.host.pBaseBlock := rfl
@[simp] theorem State.taken_pending (s : State) (rest : List HostEvent) : (s.taken rest).host.pending = rest := rfl
@[simp] theorem State.taken_returned (s : State) (rest : List HostEvent) :
    (s.taken rest).host.returned = s.host.returned := rfl
@[simp] theorem hwReset_rgd (s : State) : (hwReset s).rgd = Rgd.reset := rfl
@[simp] theorem hwReset_host (s : State) : (hwReset s).host = s.host := rfl
@[simp] theorem State.withFetchWord_rgd (s : State) (nbits w : Nat) : (s.withFetchWord nbits w).rgd = s.rgd := rfl
@[simp] theorem State.withFetchWord_pending (s : State) (nbits w : Nat) :
    (s.withFetchWord nbits w).host.pending =
      .access (s.host.accessOf (tableEncoding nbits w)) :: s.host.pending := rfl

end Sys2Proof.Machine
end

