-- ==== Sys2Proof/Laws/Ops.lean ====
section
/-! SUPPORT. What the shared operations do, said once: the bytes of a buffer after a character write (R51), the raised
mark (R108), the ready bits (R35, R56), the bits of the fields, the offset unit (R118), the window (R46). -/

namespace Sys2Proof.Machine

/-! Buffers (R51). -/

/-- `writeChars` puts the high byte at `i`, the low byte at `i + 1`, and leaves every other byte. -/
theorem byteAt_writeChars {n : Nat} (buf : Vector Byte n) (i j : Nat) (w : Half) (h : i + 1 < n) :
    byteAt (writeChars buf i w) j =
      if j = i then charHigh w else if j = i + 1 then charLow w else byteAt buf j := by
  simp only [byteAt, writeChars, Vector.getElem?_setIfInBounds]
  grind

/-- Two buffers of one size with the same bytes are one buffer. -/
theorem buf_ext {n : Nat} {a b : Vector Byte n} (h : ∀ i, i < n → byteAt a i = byteAt b i) : a = b := by
  apply Vector.ext
  intro i hi
  simpa [byteAt, hi] using h i hi

/-- Past its end a buffer reads 0x00 (R49). -/
theorem byteAt_of_le {n : Nat} (buf : Vector Byte n) (i : Nat) (h : n ≤ i) : byteAt buf i = 0x00#8 := by
  simp [byteAt, h]

/-- Writing the same characters again changes nothing. -/
theorem writeChars_idem {n : Nat} (buf : Vector Byte n) (i : Nat) (w : Half) (h : i + 1 < n) :
    writeChars (writeChars buf i w) i w = writeChars buf i w := by
  apply buf_ext
  intro j _
  simp only [byteAt_writeChars _ _ _ _ h]
  split <;> (try split) <;> rfl

/-- The blank RT buffer (R43): spaces, then the terminator. -/
theorem byteAt_blankBuf (i : Nat) :
    byteAt RtGroup.blankBuf i = if i < 64 then 0x20#8 else 0x00#8 := by
  simp only [byteAt, RtGroup.blankBuf, Config.blank, Config.terminator,
    Vector.getElem?_setIfInBounds]
  grind

/-- The initial station name (R43): spaces, then the terminator. -/
theorem byteAt_initial_ps_buf (i : Nat) :
    byteAt PsGroup.initial.buf i = if i < 8 then 0x20#8 else 0x00#8 := by
  simp only [byteAt, PsGroup.initial, Config.blank, Config.terminator,
    Vector.getElem?_setIfInBounds]
  grind

/-- The initial shadow of the station name (R43). -/
theorem byteAt_initial_ps_shadow (i : Nat) :
    byteAt PsGroup.initial.shadow i = if i < 8 then 0x20#8 else 0x00#8 := by
  simp only [byteAt, PsGroup.initial, Config.blank]
  grind

/-- `chars` holds PS_BUF[0..7]. -/
theorem byteAt_chars (g : PsGroup) (i : Nat) (h : i < 8) : byteAt g.chars i = byteAt g.buf i := by
  match i, h with
  | 0, _ | 1, _ | 2, _ | 3, _ | 4, _ | 5, _ | 6, _ | 7, _ => rfl

/-- The change test of `ps_diff` (R100), byte by byte. -/
theorem chars_eq_shadow_iff (g : PsGroup) :
    g.chars = g.shadow ↔ ∀ i, i < 8 → byteAt g.buf i = byteAt g.shadow i := by
  constructor
  · intro h i hi
    rw [← byteAt_chars g i hi, h]
  · intro h
    apply buf_ext
    intro i hi
    rw [byteAt_chars g i hi, h i hi]

/-! Marks (R108). -/

/-- The mark after `mark_raise` with an end offset that a signed byte holds. -/
theorem markRaise_toInt (m : BitVec 8) (e : Nat) (h : e ≤ 127) :
    (markRaise m e).toInt = max m.toInt (e : Int) := by
  have h1 := BitVec.toInt_lt (x := m)
  have h2 := BitVec.le_toInt (x := m)
  rw [markRaise, BitVec.toInt_ofInt, Int.bmod_def]
  omega

/-- Raising a mark again to the same end offset changes nothing. -/
theorem markRaise_idem (m : BitVec 8) (e : Nat) (h : e ≤ 127) :
    markRaise (markRaise m e) e = markRaise m e := by
  apply BitVec.eq_of_toInt_eq
  rw [markRaise_toInt _ _ h, markRaise_toInt _ _ h]
  omega

/-! READY (R35, R56). -/

/-- Raising a ready bit sets it and leaves the others. -/
@[simp] theorem raise_getLsbD (r : Rgd) (b : ReadyBit) (i : Nat) :
    (r.raise b).ready.getLsbD i = (r.ready.getLsbD i || decide (i = b.index)) := by
  cases b <;> simp only [Rgd.raise_ready, BitVec.getLsbD_or, ReadyBit.index] <;> congr 1 <;>
    rcases i with _ | _ | _ | _ | _ | _ | i <;> simp

/-- Clearing ready bits (R56), bit by bit. -/
theorem clearReady_getLsbD (r : Rgd) (v : Word) (i : Nat) (h : i < 6) :
    (r.clearReady v).ready.getLsbD i = (r.ready.getLsbD i && !v.getLsbD i) := by
  simp [Rgd.clearReady_ready, h]

/-! Fields as numbers (R66, R67, R70). -/

/-- An extracted field is a quotient and a remainder. -/
theorem extractLsb'_toNat' {n : Nat} (v : BitVec n) (s l : Nat) :
    (v.extractLsb' s l).toNat = v.toNat / 2 ^ s % 2 ^ l := by
  simp [BitVec.extractLsb'_toNat, Nat.shiftRight_eq_div_pow]

/-- A single bit as a number. -/
theorem getLsbD_iff_toNat {n : Nat} (v : BitVec n) (i : Nat) :
    v.getLsbD i = true ↔ v.toNat / 2 ^ i % 2 = 1 := by
  simp [BitVec.getLsbD, Nat.testBit_eq_decide_div_mod_eq]

/-- `error_level` (R81) as a number. -/
theorem errorLevel_toNat (g : Inputs) (b : Block) : (errorLevel g b).toNat = g.level b := by
  cases b <;> simp [errorLevel, Inputs.level, Nat.shiftRight_eq_div_pow]

/-- `accept` (R85) as numbers. -/
theorem accept_iff (l t : BitVec 2) : accept l t = true ↔ l.toNat ≤ t.toNat := by
  simp [accept, BitVec.ule]

/-- `protocol_version` (R82) as a number. -/
theorem protocolVersion_eq_B (g : Inputs) : protocolVersion g = .B ↔ g.IsVersionB := by
  have h := getLsbD_iff_toNat g.status 4
  unfold protocolVersion Inputs.IsVersionB
  split <;> simp_all

/-- `protocol_version` (R82) as a number, for version A. -/
theorem protocolVersion_eq_A (g : Inputs) : protocolVersion g = .A ↔ ¬g.IsVersionB := by
  rw [← protocolVersion_eq_B]
  cases protocolVersion g <;> simp

/-- `rt_sel` (R71) as a number. -/
theorem rtSelector_eq (g : Inputs) : rtSelector g = g.selector := by
  have h := getLsbD_iff_toNat g.blkB 4
  unfold rtSelector Inputs.selector
  split <;> simp_all

/-- The first character of a block (R51). -/
theorem charHigh_eq (w : Half) : charHigh w = highByte w := by
  apply BitVec.eq_of_toNat_eq
  simp [charHigh, highByte, Nat.shiftRight_eq_div_pow]

/-- The second character of a block (R51). -/
theorem charLow_eq (w : Half) : charLow w = lowByte w := by
  apply BitVec.eq_of_toNat_eq
  simp [charLow, lowByte]

/-- Where THR_GT, CTRL.GT_EN and the group type route a group (R123), in the claims' own reading. -/
theorem routed_iff (r : Rgd) (t : Nat) :
    r.RoutedAs t ↔ accept (errorLevel r.inp .B) r.thrGt = true ∧ r.gtEn (groupType r.inp) = true ∧
      (groupType r.inp).toNat = t := by
  have hb := r.inp.blkB.isLt
  have e : (groupType r.inp).toNat = r.inp.blkB.toNat / 4096 := by
    simp only [groupType, extractLsb'_toNat']
    omega
  simp only [Rgd.RoutedAs, accept_iff, errorLevel_toNat, Rgd.gtEn, e, Rgd.thrGt, extractLsb'_toNat']
  constructor
  · rintro ⟨h1, h2, h3⟩
    exact ⟨h1, by rw [h2]; exact h3, h2⟩
  · rintro ⟨h1, h2, h3⟩
    exact ⟨h1, h3, by rw [← h3]; exact h2⟩

/-! The offset unit (R118). -/

/-- The first loop adds a multiple of 24. -/
theorem addDays_emod (n : Nat) (h : Int) : addDays n h % 24 = h % 24 := by
  induction n generalizing h with
  | zero => rfl
  | succ n ih =>
    rw [addDays]
    split
    · rw [ih]; omega
    · rfl

/-- The second loop takes away a multiple of 24. -/
theorem subDays_emod (n : Nat) (h : Int) : subDays n h % 24 = h % 24 := by
  induction n generalizing h with
  | zero => rfl
  | succ n ih =>
    rw [subDays]
    split
    · rw [ih]; omega
    · rfl

/-- With enough turns the first loop ends at 0 or above. -/
theorem addDays_nonneg (n : Nat) (h : Int) (hn : -24 * (n : Int) ≤ h) : 0 ≤ addDays n h := by
  induction n generalizing h with
  | zero => simp only [addDays]; omega
  | succ n ih =>
    rw [addDays]
    split
    · exact ih _ (by push_cast at hn; omega)
    · omega

/-- The first loop leaves a sum that is not negative alone, and never passes 23 from below 0. -/
theorem addDays_cases (n : Nat) (h : Int) : (0 ≤ h ∧ addDays n h = h) ∨ (h < 0 ∧ addDays n h ≤ 23) := by
  induction n generalizing h with
  | zero => rw [addDays]; omega
  | succ n ih =>
    rw [addDays]
    split
    · rcases ih (h + 24) with ⟨_, h2⟩ | ⟨_, h2⟩ <;> omega
    · omega

/-- With enough turns the second loop ends at 23 or below. -/
theorem subDays_le (n : Nat) (h : Int) (hn : h ≤ 23 + 24 * (n : Int)) : subDays n h ≤ 23 := by
  induction n generalizing h with
  | zero => simp only [subDays]; omega
  | succ n ih =>
    rw [subDays]
    split
    · exact ih _ (by push_cast at hn; omega)
    · omega

/-- The second loop never goes below 0 from above. -/
theorem subDays_nonneg (n : Nat) (h : Int) (hh : 0 ≤ h) : 0 ≤ subDays n h := by
  induction n generalizing h with
  | zero => simpa only [subDays] using hh
  | succ n ih =>
    rw [subDays]
    split
    · exact ih _ (by omega)
    · exact hh

/-! The window (R46). -/

/-- Where an address reaches the window. -/
theorem windowOffset_eq_some {h : HostPort} {a off : Nat} :
    h.windowOffset a = some off ↔ 0x200 * h.pBaseBlock ≤ a ∧ a < 0x200 * h.pBaseBlock + 0x200 ∧
      off = a - 0x200 * h.pBaseBlock := by
  rw [@eq_comm _ off]
  simp only [HostPort.windowOffset, Option.ite_none_right_eq_some, Option.some.injEq, and_assoc]

end Sys2Proof.Machine
end

