-- ==== Sys2Proof/Laws/Exec.lean ====
section
/-! SUPPORT. What an instruction and a step can do, said once, and the frames of the extractors: each names the groups
it may write (R88, R95, R98, R102, R112), and leaves the rest. -/

namespace Sys2Proof.Machine

/-! `pi_update` writes the PI group and READY (R90). -/

@[simp] theorem piUpdate_inp (v : Half) (r : Rgd) : (piUpdate v r).inp = r.inp := by
  unfold piUpdate; split <;> rfl

@[simp] theorem piUpdate_ctrl (v : Half) (r : Rgd) : (piUpdate v r).ctrl = r.ctrl := by
  unfold piUpdate; split <;> rfl

@[simp] theorem piUpdate_thr (v : Half) (r : Rgd) : (piUpdate v r).thr = r.thr := by
  unfold piUpdate; split <;> rfl

@[simp] theorem piUpdate_pty (v : Half) (r : Rgd) : (piUpdate v r).pty = r.pty := by
  unfold piUpdate; split <;> rfl

@[simp] theorem piUpdate_ps (v : Half) (r : Rgd) : (piUpdate v r).ps = r.ps := by
  unfold piUpdate; split <;> rfl

@[simp] theorem piUpdate_rt (v : Half) (r : Rgd) : (piUpdate v r).rt = r.rt := by
  unfold piUpdate; split <;> rfl

@[simp] theorem piUpdate_ct (v : Half) (r : Rgd) : (piUpdate v r).ct = r.ct := by
  unfold piUpdate; split <;> rfl

@[simp] theorem piUpdate_cls (v : Half) (r : Rgd) : (piUpdate v r).cls = r.cls := by
  unfold piUpdate; split <;> rfl

/-! PI_EXTRACT writes what `pi_update` writes (R88). -/

@[simp] theorem piExtract_inp (r : Rgd) : (piExtract r).inp = r.inp := by
  unfold piExtract; split <;> simp

@[simp] theorem piExtract_ctrl (r : Rgd) : (piExtract r).ctrl = r.ctrl := by
  unfold piExtract; split <;> simp

@[simp] theorem piExtract_thr (r : Rgd) : (piExtract r).thr = r.thr := by
  unfold piExtract; split <;> simp

@[simp] theorem piExtract_pty (r : Rgd) : (piExtract r).pty = r.pty := by
  unfold piExtract; split <;> simp

@[simp] theorem piExtract_ps (r : Rgd) : (piExtract r).ps = r.ps := by
  unfold piExtract; split <;> simp

@[simp] theorem piExtract_rt (r : Rgd) : (piExtract r).rt = r.rt := by
  unfold piExtract; split <;> simp

@[simp] theorem piExtract_ct (r : Rgd) : (piExtract r).ct = r.ct := by
  unfold piExtract; split <;> simp

@[simp] theorem piExtract_cls (r : Rgd) : (piExtract r).cls = r.cls := by
  unfold piExtract; split <;> simp

/-! PTY_EXTRACT writes PTY and READY (R95). -/

@[simp] theorem ptyExtract_inp (r : Rgd) : (ptyExtract r).inp = r.inp := by
  unfold ptyExtract; split <;> rfl

@[simp] theorem ptyExtract_ctrl (r : Rgd) : (ptyExtract r).ctrl = r.ctrl := by
  unfold ptyExtract; split <;> rfl

@[simp] theorem ptyExtract_thr (r : Rgd) : (ptyExtract r).thr = r.thr := by
  unfold ptyExtract; split <;> rfl

@[simp] theorem ptyExtract_pi (r : Rgd) : (ptyExtract r).pi = r.pi := by
  unfold ptyExtract; split <;> rfl

@[simp] theorem ptyExtract_ps (r : Rgd) : (ptyExtract r).ps = r.ps := by
  unfold ptyExtract; split <;> rfl

@[simp] theorem ptyExtract_rt (r : Rgd) : (ptyExtract r).rt = r.rt := by
  unfold ptyExtract; split <;> rfl

@[simp] theorem ptyExtract_ct (r : Rgd) : (ptyExtract r).ct = r.ct := by
  unfold ptyExtract; split <;> rfl

@[simp] theorem ptyExtract_cls (r : Rgd) : (ptyExtract r).cls = r.cls := by
  unfold ptyExtract; split <;> rfl

/-! The PTY stage (R122). -/

@[simp] theorem ptyStage_inp (r : Rgd) : (ptyStage r).inp = r.inp := by
  unfold ptyStage; split <;> simp

@[simp] theorem ptyStage_ctrl (r : Rgd) : (ptyStage r).ctrl = r.ctrl := by
  unfold ptyStage; split <;> simp

@[simp] theorem ptyStage_thr (r : Rgd) : (ptyStage r).thr = r.thr := by
  unfold ptyStage; split <;> simp

@[simp] theorem ptyStage_pi (r : Rgd) : (ptyStage r).pi = r.pi := by
  unfold ptyStage; split <;> simp

@[simp] theorem ptyStage_ps (r : Rgd) : (ptyStage r).ps = r.ps := by
  unfold ptyStage; split <;> simp

@[simp] theorem ptyStage_rt (r : Rgd) : (ptyStage r).rt = r.rt := by
  unfold ptyStage; split <;> simp

@[simp] theorem ptyStage_ct (r : Rgd) : (ptyStage r).ct = r.ct := by
  unfold ptyStage; split <;> simp

@[simp] theorem ptyStage_cls (r : Rgd) : (ptyStage r).cls = r.cls := by
  unfold ptyStage; split <;> simp

/-! The character write of PS_EXTRACT (R98). -/

@[simp] theorem psWrite_inp (r : Rgd) : (psWrite r).inp = r.inp := by
  unfold psWrite; split <;> rfl

@[simp] theorem psWrite_ctrl (r : Rgd) : (psWrite r).ctrl = r.ctrl := by
  unfold psWrite; split <;> rfl

@[simp] theorem psWrite_thr (r : Rgd) : (psWrite r).thr = r.thr := by
  unfold psWrite; split <;> rfl

@[simp] theorem psWrite_pi (r : Rgd) : (psWrite r).pi = r.pi := by
  unfold psWrite; split <;> rfl

@[simp] theorem psWrite_pty (r : Rgd) : (psWrite r).pty = r.pty := by
  unfold psWrite; split <;> rfl

@[simp] theorem psWrite_rt (r : Rgd) : (psWrite r).rt = r.rt := by
  unfold psWrite; split <;> rfl

@[simp] theorem psWrite_ct (r : Rgd) : (psWrite r).ct = r.ct := by
  unfold psWrite; split <;> rfl

@[simp] theorem psWrite_ready (r : Rgd) : (psWrite r).ready = r.ready := by
  unfold psWrite; split <;> rfl

@[simp] theorem psWrite_cls (r : Rgd) : (psWrite r).cls = r.cls := by
  unfold psWrite; split <;> rfl

/-! `ps_diff` (R100). -/

@[simp] theorem psDiff_inp (r : Rgd) : (psDiff r).inp = r.inp := by
  unfold psDiff; split <;> rfl

@[simp] theorem psDiff_ctrl (r : Rgd) : (psDiff r).ctrl = r.ctrl := by
  unfold psDiff; split <;> rfl

@[simp] theorem psDiff_thr (r : Rgd) : (psDiff r).thr = r.thr := by
  unfold psDiff; split <;> rfl

@[simp] theorem psDiff_pi (r : Rgd) : (psDiff r).pi = r.pi := by
  unfold psDiff; split <;> rfl

@[simp] theorem psDiff_pty (r : Rgd) : (psDiff r).pty = r.pty := by
  unfold psDiff; split <;> rfl

@[simp] theorem psDiff_rt (r : Rgd) : (psDiff r).rt = r.rt := by
  unfold psDiff; split <;> rfl

@[simp] theorem psDiff_ct (r : Rgd) : (psDiff r).ct = r.ct := by
  unfold psDiff; split <;> rfl

@[simp] theorem psDiff_cls (r : Rgd) : (psDiff r).cls = r.cls := by
  unfold psDiff; split <;> rfl

/-! PS_EXTRACT (R98). -/

@[simp] theorem psExtract_inp (r : Rgd) : (psExtract r).inp = r.inp := by
  simp [psExtract]

@[simp] theorem psExtract_ctrl (r : Rgd) : (psExtract r).ctrl = r.ctrl := by
  simp [psExtract]

@[simp] theorem psExtract_thr (r : Rgd) : (psExtract r).thr = r.thr := by
  simp [psExtract]

@[simp] theorem psExtract_pi (r : Rgd) : (psExtract r).pi = r.pi := by
  simp [psExtract]

@[simp] theorem psExtract_pty (r : Rgd) : (psExtract r).pty = r.pty := by
  simp [psExtract]

@[simp] theorem psExtract_rt (r : Rgd) : (psExtract r).rt = r.rt := by
  simp [psExtract]

@[simp] theorem psExtract_ct (r : Rgd) : (psExtract r).ct = r.ct := by
  simp [psExtract]

@[simp] theorem psExtract_cls (r : Rgd) : (psExtract r).cls = r.cls := by
  simp [psExtract]

/-! `rtHalfCA` writes the RT group and READY. -/

@[simp] theorem rtHalfCA_inp (s : RtSel) (seg : Nat) (r : Rgd) : (rtHalfCA s seg r).inp = r.inp := by
  unfold rtHalfCA; split <;> rfl

@[simp] theorem rtHalfCA_ctrl (s : RtSel) (seg : Nat) (r : Rgd) : (rtHalfCA s seg r).ctrl = r.ctrl := by
  unfold rtHalfCA; split <;> rfl

@[simp] theorem rtHalfCA_thr (s : RtSel) (seg : Nat) (r : Rgd) : (rtHalfCA s seg r).thr = r.thr := by
  unfold rtHalfCA; split <;> rfl

@[simp] theorem rtHalfCA_pi (s : RtSel) (seg : Nat) (r : Rgd) : (rtHalfCA s seg r).pi = r.pi := by
  unfold rtHalfCA; split <;> rfl

@[simp] theorem rtHalfCA_pty (s : RtSel) (seg : Nat) (r : Rgd) : (rtHalfCA s seg r).pty = r.pty := by
  unfold rtHalfCA; split <;> rfl

@[simp] theorem rtHalfCA_ps (s : RtSel) (seg : Nat) (r : Rgd) : (rtHalfCA s seg r).ps = r.ps := by
  unfold rtHalfCA; split <;> rfl

@[simp] theorem rtHalfCA_ct (s : RtSel) (seg : Nat) (r : Rgd) : (rtHalfCA s seg r).ct = r.ct := by
  unfold rtHalfCA; split <;> rfl

@[simp] theorem rtHalfCA_cls (s : RtSel) (seg : Nat) (r : Rgd) : (rtHalfCA s seg r).cls = r.cls := by
  unfold rtHalfCA; split <;> rfl

/-! `rtHalfDA` writes the RT group and READY. -/

@[simp] theorem rtHalfDA_inp (s : RtSel) (seg : Nat) (r : Rgd) : (rtHalfDA s seg r).inp = r.inp := by
  unfold rtHalfDA; split <;> rfl

@[simp] theorem rtHalfDA_ctrl (s : RtSel) (seg : Nat) (r : Rgd) : (rtHalfDA s seg r).ctrl = r.ctrl := by
  unfold rtHalfDA; split <;> rfl

@[simp] theorem rtHalfDA_thr (s : RtSel) (seg : Nat) (r : Rgd) : (rtHalfDA s seg r).thr = r.thr := by
  unfold rtHalfDA; split <;> rfl

@[simp] theorem rtHalfDA_pi (s : RtSel) (seg : Nat) (r : Rgd) : (rtHalfDA s seg r).pi = r.pi := by
  unfold rtHalfDA; split <;> rfl

@[simp] theorem rtHalfDA_pty (s : RtSel) (seg : Nat) (r : Rgd) : (rtHalfDA s seg r).pty = r.pty := by
  unfold rtHalfDA; split <;> rfl

@[simp] theorem rtHalfDA_ps (s : RtSel) (seg : Nat) (r : Rgd) : (rtHalfDA s seg r).ps = r.ps := by
  unfold rtHalfDA; split <;> rfl

@[simp] theorem rtHalfDA_ct (s : RtSel) (seg : Nat) (r : Rgd) : (rtHalfDA s seg r).ct = r.ct := by
  unfold rtHalfDA; split <;> rfl

@[simp] theorem rtHalfDA_cls (s : RtSel) (seg : Nat) (r : Rgd) : (rtHalfDA s seg r).cls = r.cls := by
  unfold rtHalfDA; split <;> rfl

/-! `rtHalfDB` writes the RT group and READY. -/

@[simp] theorem rtHalfDB_inp (s : RtSel) (seg : Nat) (r : Rgd) : (rtHalfDB s seg r).inp = r.inp := by
  unfold rtHalfDB; split <;> rfl

@[simp] theorem rtHalfDB_ctrl (s : RtSel) (seg : Nat) (r : Rgd) : (rtHalfDB s seg r).ctrl = r.ctrl := by
  unfold rtHalfDB; split <;> rfl

@[simp] theorem rtHalfDB_thr (s : RtSel) (seg : Nat) (r : Rgd) : (rtHalfDB s seg r).thr = r.thr := by
  unfold rtHalfDB; split <;> rfl

@[simp] theorem rtHalfDB_pi (s : RtSel) (seg : Nat) (r : Rgd) : (rtHalfDB s seg r).pi = r.pi := by
  unfold rtHalfDB; split <;> rfl

@[simp] theorem rtHalfDB_pty (s : RtSel) (seg : Nat) (r : Rgd) : (rtHalfDB s seg r).pty = r.pty := by
  unfold rtHalfDB; split <;> rfl

@[simp] theorem rtHalfDB_ps (s : RtSel) (seg : Nat) (r : Rgd) : (rtHalfDB s seg r).ps = r.ps := by
  unfold rtHalfDB; split <;> rfl

@[simp] theorem rtHalfDB_ct (s : RtSel) (seg : Nat) (r : Rgd) : (rtHalfDB s seg r).ct = r.ct := by
  unfold rtHalfDB; split <;> rfl

@[simp] theorem rtHalfDB_cls (s : RtSel) (seg : Nat) (r : Rgd) : (rtHalfDB s seg r).cls = r.cls := by
  unfold rtHalfDB; split <;> rfl

/-! RT_EXTRACT writes the RT group and READY (R102). -/

@[simp] theorem rtExtract_inp (r : Rgd) : (rtExtract r).inp = r.inp := by
  unfold rtExtract; split <;> simp

@[simp] theorem rtExtract_ctrl (r : Rgd) : (rtExtract r).ctrl = r.ctrl := by
  unfold rtExtract; split <;> simp

@[simp] theorem rtExtract_thr (r : Rgd) : (rtExtract r).thr = r.thr := by
  unfold rtExtract; split <;> simp

@[simp] theorem rtExtract_pi (r : Rgd) : (rtExtract r).pi = r.pi := by
  unfold rtExtract; split <;> simp

@[simp] theorem rtExtract_pty (r : Rgd) : (rtExtract r).pty = r.pty := by
  unfold rtExtract; split <;> simp

@[simp] theorem rtExtract_ps (r : Rgd) : (rtExtract r).ps = r.ps := by
  unfold rtExtract; split <;> simp

@[simp] theorem rtExtract_ct (r : Rgd) : (rtExtract r).ct = r.ct := by
  unfold rtExtract; split <;> simp

@[simp] theorem rtExtract_cls (r : Rgd) : (rtExtract r).cls = r.cls := by
  unfold rtExtract; split <;> simp

/-! CT_EXTRACT writes the clock group and READY (R112). -/

@[simp] theorem ctExtract_inp (r : Rgd) : (ctExtract r).inp = r.inp := by
  unfold ctExtract; split; rfl; split; rfl; split <;> rfl

@[simp] theorem ctExtract_ctrl (r : Rgd) : (ctExtract r).ctrl = r.ctrl := by
  unfold ctExtract; split; rfl; split; rfl; split <;> rfl

@[simp] theorem ctExtract_thr (r : Rgd) : (ctExtract r).thr = r.thr := by
  unfold ctExtract; split; rfl; split; rfl; split <;> rfl

@[simp] theorem ctExtract_pi (r : Rgd) : (ctExtract r).pi = r.pi := by
  unfold ctExtract; split; rfl; split; rfl; split <;> rfl

@[simp] theorem ctExtract_pty (r : Rgd) : (ctExtract r).pty = r.pty := by
  unfold ctExtract; split; rfl; split; rfl; split <;> rfl

@[simp] theorem ctExtract_ps (r : Rgd) : (ctExtract r).ps = r.ps := by
  unfold ctExtract; split; rfl; split; rfl; split <;> rfl

@[simp] theorem ctExtract_rt (r : Rgd) : (ctExtract r).rt = r.rt := by
  unfold ctExtract; split; rfl; split; rfl; split <;> rfl

@[simp] theorem ctExtract_cls (r : Rgd) : (ctExtract r).cls = r.cls := by
  unfold ctExtract; split; rfl; split; rfl; split <;> rfl

/-! The routing (R123). -/

@[simp] theorem route_inp (r : Rgd) : (route r).inp = r.inp := by
  unfold route; split <;> (try split) <;> simp

@[simp] theorem route_ctrl (r : Rgd) : (route r).ctrl = r.ctrl := by
  unfold route; split <;> (try split) <;> simp

@[simp] theorem route_thr (r : Rgd) : (route r).thr = r.thr := by
  unfold route; split <;> (try split) <;> simp

@[simp] theorem route_pi (r : Rgd) : (route r).pi = r.pi := by
  unfold route; split <;> (try split) <;> simp

@[simp] theorem route_pty (r : Rgd) : (route r).pty = r.pty := by
  unfold route; split <;> (try split) <;> simp

@[simp] theorem route_cls (r : Rgd) : (route r).cls = r.cls := by
  unfold route; split <;> (try split) <;> simp

/-! DISPATCH (R123). -/

@[simp] theorem dispatch_inp (r : Rgd) : (dispatch r).inp = r.inp := by
  unfold dispatch; split; rfl; split <;> simp

@[simp] theorem dispatch_ctrl (r : Rgd) : (dispatch r).ctrl = r.ctrl := by
  unfold dispatch; split; rfl; split <;> simp

@[simp] theorem dispatch_thr (r : Rgd) : (dispatch r).thr = r.thr := by
  unfold dispatch; split; rfl; split <;> simp

@[simp] theorem dispatch_pi (r : Rgd) : (dispatch r).pi = r.pi := by
  unfold dispatch; split; rfl; split <;> simp

@[simp] theorem dispatch_pty (r : Rgd) : (dispatch r).pty = r.pty := by
  unfold dispatch; split; rfl; split <;> simp

@[simp] theorem dispatch_cls (r : Rgd) : (dispatch r).cls = r.cls := by
  unfold dispatch; split; rfl; split <;> simp

@[simp] theorem feed_inp (r : Rgd) : (feed r).inp = r.inp := by
  simp [feed]

@[simp] theorem feed_ctrl (r : Rgd) : (feed r).ctrl = r.ctrl := by
  simp [feed]

@[simp] theorem feed_thr (r : Rgd) : (feed r).thr = r.thr := by
  simp [feed]

/-- FEED leaves CLASS as the classification put it (R121). -/
@[simp] theorem feed_cls (r : Rgd) : (feed r).cls = classWord r.inp := by
  simp [feed]

/-! A conditional part of SRESET (R131). -/

@[simp] theorem sresetRT_inp (r : Rgd) : (sresetRT r).inp = r.inp := by
  unfold sresetRT; split <;> rfl

@[simp] theorem sresetRT_ctrl (r : Rgd) : (sresetRT r).ctrl = r.ctrl := by
  unfold sresetRT; split <;> rfl

@[simp] theorem sresetRT_thr (r : Rgd) : (sresetRT r).thr = r.thr := by
  unfold sresetRT; split <;> rfl

@[simp] theorem sresetRT_pi (r : Rgd) : (sresetRT r).pi = r.pi := by
  unfold sresetRT; split <;> rfl

@[simp] theorem sresetRT_pty (r : Rgd) : (sresetRT r).pty = r.pty := by
  unfold sresetRT; split <;> rfl

@[simp] theorem sresetRT_ps (r : Rgd) : (sresetRT r).ps = r.ps := by
  unfold sresetRT; split <;> rfl

@[simp] theorem sresetRT_ct (r : Rgd) : (sresetRT r).ct = r.ct := by
  unfold sresetRT; split <;> rfl

@[simp] theorem sresetRT_ready (r : Rgd) : (sresetRT r).ready = r.ready := by
  unfold sresetRT; split <;> rfl

@[simp] theorem sresetRT_cls (r : Rgd) : (sresetRT r).cls = r.cls := by
  unfold sresetRT; split <;> rfl

/-! A conditional part of SRESET (R131). -/

@[simp] theorem sresetPS_inp (r : Rgd) : (sresetPS r).inp = r.inp := by
  unfold sresetPS; split <;> rfl

@[simp] theorem sresetPS_ctrl (r : Rgd) : (sresetPS r).ctrl = r.ctrl := by
  unfold sresetPS; split <;> rfl

@[simp] theorem sresetPS_thr (r : Rgd) : (sresetPS r).thr = r.thr := by
  unfold sresetPS; split <;> rfl

@[simp] theorem sresetPS_pi (r : Rgd) : (sresetPS r).pi = r.pi := by
  unfold sresetPS; split <;> rfl

@[simp] theorem sresetPS_rt (r : Rgd) : (sresetPS r).rt = r.rt := by
  unfold sresetPS; split <;> rfl

@[simp] theorem sresetPS_ct (r : Rgd) : (sresetPS r).ct = r.ct := by
  unfold sresetPS; split <;> rfl

@[simp] theorem sresetPS_ready (r : Rgd) : (sresetPS r).ready = r.ready := by
  unfold sresetPS; split <;> rfl

@[simp] theorem sresetPS_cls (r : Rgd) : (sresetPS r).cls = r.cls := by
  unfold sresetPS; split <;> rfl

/-! SRESET (R131). -/

@[simp] theorem sreset_inp (r : Rgd) : (sreset r).inp = r.inp := by
  simp [sreset]

@[simp] theorem sreset_ctrl (r : Rgd) : (sreset r).ctrl = r.ctrl := by
  simp [sreset]

@[simp] theorem sreset_thr (r : Rgd) : (sreset r).thr = r.thr := by
  simp [sreset]

@[simp] theorem sreset_cls (r : Rgd) : (sreset r).cls = r.cls := by
  simp [sreset]

/-! What an instruction can do. -/

/-- The functions of the RGD that instructions run: the commands, and the register writes. -/
inductive RgdWork : Instr → (Rgd → Rgd) → Prop
  | init : RgdWork .init init
  | sreset : RgdWork .sreset sreset
  | feed : RgdWork .feed feed
  | wrInit : RgdWork (.wrCmd 0x00000001#32) init
  | wrSreset : RgdWork (.wrCmd 0x00000002#32) sreset
  | wrFeed : RgdWork (.wrCmd 0x00000003#32) feed
  | status (v : Word) : RgdWork (.wrInStatus v) fun r => { r with inp := { r.inp with status := v.extractLsb' 0 8 } }
  | blkA (v : Word) : RgdWork (.wrInBlkA v) fun r => { r with inp := { r.inp with blkA := v.extractLsb' 0 16 } }
  | blkB (v : Word) : RgdWork (.wrInBlkB v) fun r => { r with inp := { r.inp with blkB := v.extractLsb' 0 16 } }
  | blkC (v : Word) : RgdWork (.wrInBlkC v) fun r => { r with inp := { r.inp with blkC := v.extractLsb' 0 16 } }
  | blkD (v : Word) : RgdWork (.wrInBlkD v) fun r => { r with inp := { r.inp with blkD := v.extractLsb' 0 16 } }
  | err (v : Word) : RgdWork (.wrInErr v) fun r => { r with inp := { r.inp with err := v.extractLsb' 0 16 } }
  | ctrl (v : Word) : RgdWork (.wrCtrl v) fun r => { r with ctrl := v.extractLsb' 0 19 }
  | thr (v : Word) : RgdWork (.wrThr v) fun r => { r with thr := v.extractLsb' 0 10 }
  | ready (v : Word) : RgdWork (.wrReady v) fun r => r.clearReady v

/-- The command a word decodes to, with the word (R73, R74). -/
theorem decodeCommand_cases (w : Word) :
    (w = 0x00000000#32 ∧ decodeCommand w = .nop) ∨ (w = 0x00000001#32 ∧ decodeCommand w = .init) ∨
    (w = 0x00000002#32 ∧ decodeCommand w = .sreset) ∨ (w = 0x00000003#32 ∧ decodeCommand w = .feed) ∨
    (4 ≤ w.toNat ∧ decodeCommand w = .reserved w) := by
  have key : ∀ k : Nat, k < 4 → (w.extractLsb' 8 24 = 0#24) → (w.extractLsb' 0 8).toNat = k → w = BitVec.ofNat 32 k := by
    intro k hk h1 h2
    apply BitVec.eq_of_toNat_eq
    have h3 := congrArg BitVec.toNat h1
    rw [extractLsb'_toNat'] at h2 h3
    have := w.isLt
    simp at h3 ⊢
    omega
  unfold decodeCommand
  split
  · rename_i h
    split
    · rename_i h2; exact .inl ⟨key 0 (by omega) h h2, rfl⟩
    · rename_i h2; exact .inr (.inl ⟨key 1 (by omega) h h2, rfl⟩)
    · rename_i h2; exact .inr (.inr (.inl ⟨key 2 (by omega) h h2, rfl⟩))
    · rename_i h2; exact .inr (.inr (.inr (.inl ⟨key 3 (by omega) h h2, rfl⟩)))
    · rename_i h0 h1 h2 h3
      refine .inr (.inr (.inr (.inr ⟨?_, rfl⟩)))
      rw [extractLsb'_toNat'] at h0 h1 h2 h3
      simp at h0 h1 h2 h3
      omega
  · rename_i h
    refine .inr (.inr (.inr (.inr ⟨?_, rfl⟩)))
    rcases Nat.lt_or_ge w.toNat 4 with h4 | h4
    · exfalso
      apply h
      apply BitVec.eq_of_toNat_eq
      rw [extractLsb'_toNat']
      simp
      omega
    · exact h4

/-- What an instruction that completes has done: nothing, an answer to the host, or one function of the RGD. -/
theorem exec_cases {i : Instr} {s t : State} (h : exec i s = .next t) :
    t = s ∨ (∃ v, t = s.answer v) ∨ (∃ f, RgdWork i f ∧ t = s.onRgd f) := by
  cases i with
  | wrCmd v =>
    rcases decodeCommand_cases v with ⟨rfl, hd⟩ | ⟨rfl, hd⟩ | ⟨rfl, hd⟩ | ⟨rfl, hd⟩ | ⟨_, hd⟩ <;>
      simp only [exec, execWrCmd, hd, runCommand, execNop, execInit, execSreset, execFeed, execReserved,
        Host.Outcome.next.injEq] at h
    · exact .inl h.symm
    · exact .inr (.inr ⟨_, .wrInit, h.symm⟩)
    · exact .inr (.inr ⟨_, .wrSreset, h.symm⟩)
    · exact .inr (.inr ⟨_, .wrFeed, h.symm⟩)
    · exact .inl h.symm
  | init => cases h; exact .inr (.inr ⟨_, .init, rfl⟩)
  | sreset => cases h; exact .inr (.inr ⟨_, .sreset, rfl⟩)
  | feed => cases h; exact .inr (.inr ⟨_, .feed, rfl⟩)
  | wrInStatus v => cases h; exact .inr (.inr ⟨_, .status v, rfl⟩)
  | wrInBlkA v => cases h; exact .inr (.inr ⟨_, .blkA v, rfl⟩)
  | wrInBlkB v => cases h; exact .inr (.inr ⟨_, .blkB v, rfl⟩)
  | wrInBlkC v => cases h; exact .inr (.inr ⟨_, .blkC v, rfl⟩)
  | wrInBlkD v => cases h; exact .inr (.inr ⟨_, .blkD v, rfl⟩)
  | wrInErr v => cases h; exact .inr (.inr ⟨_, .err v, rfl⟩)
  | wrCtrl v => cases h; exact .inr (.inr ⟨_, .ctrl v, rfl⟩)
  | wrThr v => cases h; exact .inr (.inr ⟨_, .thr v, rfl⟩)
  | wrReady v => cases h; exact .inr (.inr ⟨_, .ready v, rfl⟩)
  | nop | reserved | wrPiStat | wrPtyStat | wrPsStat | wrRtStat | wrCtStat | wrClass | wrPsWin | wrRtaWin | wrRtbWin
  | wrReserved => cases h; exact .inl rfl
  | rdCmd | rdInStatus | rdInBlkA | rdInBlkB | rdInBlkC | rdInBlkD | rdInErr | rdCtrl | rdThr | rdReady | rdPiStat
  | rdPtyStat | rdPsStat | rdRtStat | rdCtStat | rdClass | rdPsWin | rdRtaWin | rdRtbWin | rdReserved =>
    cases h; exact .inr (.inl ⟨_, rfl⟩)

/-- What a step that answers a next state has done: waited, taken a hardware reset, or run the instruction of the
oldest pending access. -/
theorem step_cases {s t : State} (h : step s = .next t) :
    (s.host.pending = [] ∧ t = s) ∨
    (∃ rest, s.host.pending = .hwReset :: rest ∧ t = hwReset (s.taken rest)) ∨
    (∃ a rest i, s.host.pending = .access a :: rest ∧ fetch s.host a = .ok i ∧ exec i (s.taken rest) = .next t) := by
  unfold step at h
  split at h
  · rename_i hp
    cases h
    exact .inl ⟨hp, rfl⟩
  · rename_i rest hp
    cases h
    exact .inr (.inl ⟨rest, hp, rfl⟩)
  · rename_i a rest hp
    split at h
    · rename_i i hf
      exact .inr (.inr ⟨a, rest, i, hp, hf, h⟩)
    · cases h

/-- An invariant of the RGD that hardware reset establishes and every function of the RGD keeps is kept by every step. -/
theorem step_keeps {P : Rgd → Prop} (hreset : P Rgd.reset)
    (hwork : ∀ i f, RgdWork i f → ∀ r, P r → P (f r)) {s t : State} (hs : P s.rgd) (h : step s = .next t) :
    P t.rgd := by
  rcases step_cases h with ⟨_, rfl⟩ | ⟨rest, _, rfl⟩ | ⟨a, rest, i, _, _, he⟩
  · exact hs
  · exact hreset
  · rcases exec_cases he with rfl | ⟨v, rfl⟩ | ⟨f, hf, rfl⟩
    · exact hs
    · exact hs
    · exact hwork i f hf s.rgd hs

/-- What a fetch that succeeds has found (R46, R47). -/
theorem fetch_eq_ok {h : HostPort} {a : HostAccess} {i : Instr} (hf : fetch h a = .ok i) :
    ∃ off, h.windowOffset a.addr = some off ∧ decode (.access a.dir a.bytes off) = .ok i := by
  unfold fetch at hf
  split at hf
  · cases hf
  · rename_i off ho
    split at hf
    · rename_i j hd
      cases hf
      exact ⟨off, ho, hd⟩
    · cases hf

end Sys2Proof.Machine
end

