-- ==== Sys2Proof/Laws/Feed.lean ====
section
/-! SUPPORT. The ready bits an extractor leaves alone (R125), and what stands before the dispatcher in a FEED: the
dispatcher sees the inputs, the configuration and its own groups as the FEED found them. -/

namespace Sys2Proof.Machine

/-- `pi_update` touches no ready bit but RDY_PI. -/
theorem piUpdate_ready_other (v : Half) (r : Rgd) (i : Nat) (h : i ≠ 0) :
    (piUpdate v r).ready.getLsbD i = r.ready.getLsbD i := by
  unfold piUpdate
  split
  · rw [raise_getLsbD]; simp [ReadyBit.index, h]
  · rfl

/-- PI_EXTRACT touches no ready bit but RDY_PI. -/
theorem piExtract_ready_other (r : Rgd) (i : Nat) (h : i ≠ 0) :
    (piExtract r).ready.getLsbD i = r.ready.getLsbD i := by
  unfold piExtract
  split
  · exact piUpdate_ready_other _ _ _ h
  · rfl

/-- PTY_EXTRACT touches no ready bit but RDY_PTY. -/
theorem ptyExtract_ready_other (r : Rgd) (i : Nat) (h : i ≠ 1) :
    (ptyExtract r).ready.getLsbD i = r.ready.getLsbD i := by
  unfold ptyExtract
  split
  · rw [raise_getLsbD]; simp [ReadyBit.index, h]
  · rfl

/-- The PTY stage touches no ready bit but RDY_PTY. -/
theorem ptyStage_ready_other (r : Rgd) (i : Nat) (h : i ≠ 1) :
    (ptyStage r).ready.getLsbD i = r.ready.getLsbD i := by
  unfold ptyStage
  split
  · exact ptyExtract_ready_other _ _ h
  · rfl

/-- PS_EXTRACT touches no ready bit but RDY_PS. -/
theorem psExtract_ready_other (r : Rgd) (i : Nat) (h : i ≠ 2) :
    (psExtract r).ready.getLsbD i = r.ready.getLsbD i := by
  unfold psExtract psDiff
  split
  · rw [raise_getLsbD]; simp [ReadyBit.index, h]
  · simp

/-- RDY_RT after an accepted half, and the other ready bits (R106). -/
@[simp] theorem rtWrite_getLsbD (s : RtSel) (j : Nat) (w : Half) (r : Rgd) (i : Nat) :
    (rtWrite s j w r).ready.getLsbD i = (r.ready.getLsbD i || decide (i = 3)) :=
  raise_getLsbD _ .rt i

/-- RT_EXTRACT touches no ready bit but RDY_RT. -/
theorem rtExtract_ready_other (r : Rgd) (i : Nat) (h : i ≠ 3) :
    (rtExtract r).ready.getLsbD i = r.ready.getLsbD i := by
  unfold rtExtract rtHalfDA rtHalfCA rtHalfDB
  split
  · split <;> split <;> simp [h]
  · split <;> simp [h]

/-- CT_EXTRACT touches no ready bit but RDY_CT. -/
theorem ctExtract_ready_other (r : Rgd) (i : Nat) (h : i ≠ 4) :
    (ctExtract r).ready.getLsbD i = r.ready.getLsbD i := by
  unfold ctExtract
  split
  · rfl
  · split
    · rfl
    · split
      · rfl
      · rw [raise_getLsbD]; simp [ReadyBit.index, h]

/-- What a FEED has done when the dispatcher starts (R121, R122). -/
def beforeDispatch (r : Rgd) : Rgd := ptyStage (piExtract (classify r))

theorem feed_eq (r : Rgd) : feed r = dispatch (beforeDispatch r) := rfl

@[simp] theorem beforeDispatch_inp (r : Rgd) : (beforeDispatch r).inp = r.inp := by simp [beforeDispatch]
@[simp] theorem beforeDispatch_ctrl (r : Rgd) : (beforeDispatch r).ctrl = r.ctrl := by simp [beforeDispatch]
@[simp] theorem beforeDispatch_thr (r : Rgd) : (beforeDispatch r).thr = r.thr := by simp [beforeDispatch]
@[simp] theorem beforeDispatch_ps (r : Rgd) : (beforeDispatch r).ps = r.ps := by simp [beforeDispatch]
@[simp] theorem beforeDispatch_rt (r : Rgd) : (beforeDispatch r).rt = r.rt := by simp [beforeDispatch]
@[simp] theorem beforeDispatch_ct (r : Rgd) : (beforeDispatch r).ct = r.ct := by simp [beforeDispatch]

/-- Before the dispatcher, only RDY_PI and RDY_PTY may have been set. -/
theorem beforeDispatch_ready_other (r : Rgd) (i : Nat) (h0 : i ≠ 0) (h1 : i ≠ 1) :
    (beforeDispatch r).ready.getLsbD i = r.ready.getLsbD i := by
  rw [beforeDispatch, ptyStage_ready_other _ _ h1, piExtract_ready_other _ _ h0, classify_ready]

@[simp] theorem feed_pi (r : Rgd) : (feed r).pi = (piExtract (classify r)).pi := by simp [feed]
@[simp] theorem feed_pty (r : Rgd) : (feed r).pty = (ptyStage (piExtract (classify r))).pty := by simp [feed]

/-- The three ways a dispatch goes (R123): to no extractor, or routed by the group type. -/
theorem dispatch_cases (r : Rgd) :
    (¬r.RoutedAs 0 ∧ ¬r.RoutedAs 2 ∧ ¬(r.RoutedAs 4 ∧ protocolVersion r.inp = .A) ∧ dispatch r = r) ∨
    (r.RoutedAs 0 ∧ dispatch r = psExtract r) ∨
    (r.RoutedAs 2 ∧ dispatch r = rtExtract r) ∨
    (r.RoutedAs 4 ∧ protocolVersion r.inp = .A ∧ dispatch r = ctExtract r) := by
  simp only [routed_iff]
  unfold dispatch
  split
  · rename_i h; simp [h]
  · rename_i ha
    split
    · rename_i h; simp [h]
    · rename_i hb
      rw [Bool.not_eq_false] at ha hb
      unfold route
      split
      · rename_i h; exact .inr (.inl ⟨⟨ha, hb, h⟩, rfl⟩)
      · rename_i h; exact .inr (.inr (.inl ⟨⟨ha, hb, h⟩, rfl⟩))
      · rename_i h
        split
        · rename_i hv; exact .inr (.inr (.inr ⟨⟨ha, hb, h⟩, hv, rfl⟩))
        · rename_i hv; exact .inl ⟨by omega, by omega, by simp [hv], rfl⟩
      · rename_i h0 h2 h4
        exact .inl ⟨fun x => h0 x.2.2, fun x => h2 x.2.2, fun x => h4 x.1.2.2, rfl⟩

/-- A group has one type, so it is routed as at most one (R124). -/
theorem routedAs_unique {r : Rgd} {t u : Nat} (h : r.RoutedAs t) (h' : r.RoutedAs u) : t = u :=
  h.2.1.symm.trans h'.2.1

end Sys2Proof.Machine
end

