-- ==== Sys2Proof/Tests/Slice0.lean ====
section
/-! SUPPORT. The model's tests. Expected values come from the tables of spec/ and from the vectors of
95_test_vectors.md, named by their ids; the last part shows, for each statement with hypotheses, inputs that meet them. -/

namespace Sys2Proof.Tests

open Sys2Proof Sys2Proof.Machine

/-! Helpers. -/

/-- A raw group, in the operand order of the pseudo-instruction `feed` (R79). -/
def grp (st : Byte) (a b c d e : Half) : Inputs :=
  { status := st, blkA := a, blkB := b, blkC := c, blkD := d, err := e }

/-- A state with a given RGD, nothing pending. -/
def st (r : Rgd) : State := { State.reset with rgd := r }

/-- A state with a given RGD, the raw group `g` loaded. -/
def load (r : Rgd) (g : Inputs) : State := st { r with inp := g }

/-- The state an instruction answers with. -/
def after (i : Instr) (s : State) : State :=
  match exec i s with
  | .next t => t
  | _ => s

/-- The next state of an outcome, if it has one. -/
def nextOf : Result → Option State
  | .next t => some t
  | _ => none

/-- The refusal of an outcome, if it is one. -/
def refusalOf : Result → Option Refusal
  | .refused r => some r
  | _ => none

/-- The RGD once the group `g` has been fed to `r`. -/
def fed (r : Rgd) (g : Inputs) : Rgd := (after .feed (load r g)).rgd

/-- The value the newest read returned. -/
def lastRead (s : State) : Option Word := s.host.returned.head?

/-- A state with one pending event. -/
def pend (s : State) (es : List HostEvent) : State := { s with host := { s.host with pending := es } }

/-- A word access of the host. -/
def acc (d : Dir) (addr : Nat) : HostEvent := .access { dir := d, bytes := 4, addr := addr }

/-- The first `n` bytes of a buffer. -/
def firstBytes {n : Nat} (k : Nat) (b : Vector Byte n) : List Byte := (List.range k).map (byteAt b)

/-- The classic example group (L1-6): type 0, segment 0, "AB". -/
def abGroup : Inputs := grp 0x00 0x1234 0x0000 0x0000 0x4142 0x0000

/-- The record after L1-6. -/
def afterAB : Rgd := fed Rgd.reset abGroup

/-- The record after L1-7: "ABCD" in buffer "A". -/
def afterABCD : Rgd := fed Rgd.reset (grp 0x00 0x1234 0x2000 0x4142 0x4344 0x0000)

/-- CTRL 0x0002_0015: the clock extractor is routed (43_clock.md). -/
def clockOn : Rgd := { Rgd.reset with ctrl := 0x20015#19 }

/-- CTRL 0x0003_0005: the PTY extractor runs. -/
def ptyOn : Rgd := { Rgd.reset with ctrl := 0x30005#19 }

/-- The record after CT-1: clock 23:30. -/
def afterClock : Rgd := fed clockOn (grp 0x00 0x1234 0x4000 0x0000 0x17A2 0x0000)

/-! WellFormed refuses ill-formed terms (R48, R74). -/

theorem test_illFormed_reserved_nop_word : (Instr.reserved 0x00000000#32).wellFormed = false := by decide
theorem test_illFormed_reserved_feed_word : (Instr.reserved 0x00000003#32).wellFormed = false := by decide
theorem test_illFormed_psWin :
    (Instr.rdPsWin 0x08C).wellFormed = false ∧ (Instr.rdPsWin 0x082).wellFormed = false ∧
    (Instr.wrPsWin 0x07C 0#32).wellFormed = false ∧ (Instr.wrPsWin 0x089 0#32).wellFormed = false := by decide
theorem test_illFormed_rtaWin :
    (Instr.rdRtaWin 0x144).wellFormed = false ∧ (Instr.rdRtaWin 0x101).wellFormed = false ∧
    (Instr.wrRtaWin 0x0FC 0#32).wellFormed = false ∧ (Instr.wrRtaWin 0x13E 0#32).wellFormed = false := by decide
theorem test_illFormed_rtbWin :
    (Instr.rdRtbWin 0x1C4).wellFormed = false ∧ (Instr.rdRtbWin 0x182).wellFormed = false ∧
    (Instr.wrRtbWin 0x17C 0#32).wellFormed = false ∧ (Instr.wrRtbWin 0x1BF 0#32).wellFormed = false := by decide
theorem test_illFormed_reservedOffset :
    (Instr.rdReserved 0x020).wellFormed = false ∧ (Instr.rdReserved 0x200).wellFormed = false ∧
    (Instr.rdReserved 0x046).wellFormed = false ∧ (Instr.wrReserved 0x080 0#32).wellFormed = false ∧
    (Instr.wrReserved 0x1C0 0#32).wellFormed = false := by decide
theorem test_wellFormed_edges :
    (Instr.reserved 0x00000004#32).wellFormed = true ∧ (Instr.reserved 0x00000100#32).wellFormed = true ∧
    (Instr.rdPsWin 0x088).wellFormed = true ∧ (Instr.rdRtaWin 0x140).wellFormed = true ∧
    (Instr.rdRtbWin 0x180).wellFormed = true ∧ (Instr.rdReserved 0x01C).wellFormed = true ∧
    (Instr.wrReserved 0x1FC 0#32).wellFormed = true := by decide

/-! Decoding: words and offsets written out from R48, R72 and R73. -/

theorem test_decode_commands :
    decode (.command (0x000000#24 ++ 0x00#8)) = .ok .nop ∧ decode (.command (0x000000#24 ++ 0x01#8)) = .ok .init ∧
    decode (.command (0x000000#24 ++ 0x02#8)) = .ok .sreset ∧ decode (.command (0x000000#24 ++ 0x03#8)) = .ok .feed ∧
    decode (.command (0x000000#24 ++ 0x04#8)) = .ok (.reserved 0x00000004#32) ∧
    decode (.command (0x000001#24 ++ 0x03#8)) = .ok (.reserved 0x00000103#32) ∧
    decode (.command 0x80000000#32) = .ok (.reserved 0x80000000#32) := by decide

theorem test_decode_register_reads :
    decode (.access .read 4 0x000) = .ok .rdCmd ∧ decode (.access .read 4 0x004) = .ok .rdInStatus ∧
    decode (.access .read 4 0x008) = .ok .rdInBlkA ∧ decode (.access .read 4 0x00C) = .ok .rdInBlkB ∧
    decode (.access .read 4 0x010) = .ok .rdInBlkC ∧ decode (.access .read 4 0x014) = .ok .rdInBlkD ∧
    decode (.access .read 4 0x018) = .ok .rdInErr ∧ decode (.access .read 4 0x020) = .ok .rdCtrl ∧
    decode (.access .read 4 0x024) = .ok .rdThr ∧ decode (.access .read 4 0x028) = .ok .rdReady ∧
    decode (.access .read 4 0x02C) = .ok .rdPiStat ∧ decode (.access .read 4 0x030) = .ok .rdPtyStat ∧
    decode (.access .read 4 0x034) = .ok .rdPsStat ∧ decode (.access .read 4 0x038) = .ok .rdRtStat ∧
    decode (.access .read 4 0x03C) = .ok .rdCtStat ∧ decode (.access .read 4 0x040) = .ok .rdClass := by decide

theorem test_decode_register_writes :
    decode (.access (.write 0x5A#32) 4 0x000) = .ok (.wrCmd 0x5A#32) ∧
    decode (.access (.write 0x5A#32) 4 0x004) = .ok (.wrInStatus 0x5A#32) ∧
    decode (.access (.write 0x5A#32) 4 0x008) = .ok (.wrInBlkA 0x5A#32) ∧
    decode (.access (.write 0x5A#32) 4 0x00C) = .ok (.wrInBlkB 0x5A#32) ∧
    decode (.access (.write 0x5A#32) 4 0x010) = .ok (.wrInBlkC 0x5A#32) ∧
    decode (.access (.write 0x5A#32) 4 0x014) = .ok (.wrInBlkD 0x5A#32) ∧
    decode (.access (.write 0x5A#32) 4 0x018) = .ok (.wrInErr 0x5A#32) ∧
    decode (.access (.write 0x5A#32) 4 0x020) = .ok (.wrCtrl 0x5A#32) ∧
    decode (.access (.write 0x5A#32) 4 0x024) = .ok (.wrThr 0x5A#32) ∧
    decode (.access (.write 0x5A#32) 4 0x028) = .ok (.wrReady 0x5A#32) ∧
    decode (.access (.write 0x5A#32) 4 0x02C) = .ok (.wrPiStat 0x5A#32) ∧
    decode (.access (.write 0x5A#32) 4 0x030) = .ok (.wrPtyStat 0x5A#32) ∧
    decode (.access (.write 0x5A#32) 4 0x034) = .ok (.wrPsStat 0x5A#32) ∧
    decode (.access (.write 0x5A#32) 4 0x038) = .ok (.wrRtStat 0x5A#32) ∧
    decode (.access (.write 0x5A#32) 4 0x03C) = .ok (.wrCtStat 0x5A#32) ∧
    decode (.access (.write 0x5A#32) 4 0x040) = .ok (.wrClass 0x5A#32) := by decide

theorem test_decode_windows :
    decode (.access .read 4 0x080) = .ok (.rdPsWin 0x080) ∧ decode (.access .read 4 0x088) = .ok (.rdPsWin 0x088) ∧
    decode (.access .read 4 0x100) = .ok (.rdRtaWin 0x100) ∧ decode (.access .read 4 0x140) = .ok (.rdRtaWin 0x140) ∧
    decode (.access .read 4 0x180) = .ok (.rdRtbWin 0x180) ∧ decode (.access .read 4 0x1C0) = .ok (.rdRtbWin 0x1C0) ∧
    decode (.access (.write 0x5A#32) 4 0x084) = .ok (.wrPsWin 0x084 0x5A#32) ∧
    decode (.access (.write 0x5A#32) 4 0x120) = .ok (.wrRtaWin 0x120 0x5A#32) ∧
    decode (.access (.write 0x5A#32) 4 0x1A0) = .ok (.wrRtbWin 0x1A0 0x5A#32) := by decide

theorem test_decode_reserved_offsets :
    decode (.access .read 4 0x01C) = .ok (.rdReserved 0x01C) ∧ decode (.access .read 4 0x044) = .ok (.rdReserved 0x044) ∧
    decode (.access .read 4 0x08C) = .ok (.rdReserved 0x08C) ∧ decode (.access .read 4 0x144) = .ok (.rdReserved 0x144) ∧
    decode (.access .read 4 0x1FC) = .ok (.rdReserved 0x1FC) ∧
    decode (.access (.write 0x5A#32) 4 0x17C) = .ok (.wrReserved 0x17C 0x5A#32) := by decide

/-- R47, R46: rejected by name. -/
theorem test_decode_rejects :
    decode (.access .read 2 0x004) = .error (.notWordAccess 2) ∧
    decode (.access .read 8 0x008) = .error (.notWordAccess 8) ∧
    decode (.access (.write 0#32) 4 0x006) = .error (.misaligned 0x006) ∧
    decode (.access .read 4 0x200) = .error (.beyondWindow 0x200) := by decide

/-- No two rows of the register map overlap (R48). -/
theorem test_registerMap_rows_disjoint :
    registerMap.Pairwise (fun r q => r.last < q.first) := by decide

/-- The rows of the register map cover every word offset of the window (R48). -/
theorem test_registerMap_covers_window : ∀ k, k < 128 → (regAt (4 * k)).isSome = true := by decide

/-- The words of opcode_table.json: the command rows, and the access rows (log 8). -/
theorem test_decodeTableWord :
    decodeTableWord 32 0x00000003 = some .feed ∧ decodeTableWord 32 0x00000002 = some .sreset ∧
    decodeTableWord 16 0x038 = some .rdRtStat ∧ decodeTableWord 16 0x01C = some (.rdReserved 0x01C) ∧
    decodeTableWord 48 0x000303FF0224 = some (.wrThr 0x000303FF#32) ∧ decodeTableWord 16 0x400 = none := by decide

/-! Steps, and running from reset (log 1). -/

/-- HO-1, through the fetch: the first step after reset reads RT_STAT. -/
theorem test_withFetchWord_reads :
    nextOf (step (State.reset.withFetchWord 16 0x038)) = some { State.reset with
      host := { State.reset.host with returned := [0x00FFFF00#32] } } := by decide

/-- FD-5 and the log's fetch of a command word: a reserved word is taken and changes nothing. -/
theorem test_withFetchWord_command :
    nextOf (step (State.reset.withFetchWord 32 0x00000103)) = some State.reset := by decide

/-- HO-13 and log 4: refused by name. -/
theorem test_step_refusals :
    refusalOf (step (pend State.reset [.access { dir := .read, bytes := 2, addr := 0x004 }])) =
      some (.contract (.notWordAccess 2)) ∧
    refusalOf (step (pend State.reset [acc .read 0x005])) = some (.contract (.misaligned 0x005)) ∧
    refusalOf (step (pend State.reset [acc .read 0x200])) = some (.outsideWindow 0x200) := by decide

/-- R153: hardware reset, from a state with a record. -/
theorem test_step_hwReset : nextOf (step (pend (st afterAB) [.hwReset])) = some State.reset := by decide

/-! Commands. -/

/-- IN-1: INIT clears the record and CLASS, and leaves the inputs. -/
theorem test_init : after .init (st afterABCD) = st { Rgd.reset with inp := afterABCD.inp } := by decide

/-- SR-1, in part: text, clock and name. -/
theorem test_sreset_all :
    (after .sreset (st { afterAB with rt := afterABCD.rt, ct := afterClock.ct, pty := 10#5 })).rgd =
      { Rgd.reset with inp := afterAB.inp, cls := 0x0002#16 } := by decide

/-- SR-2 and SR-3: SR_PS 0 keeps the name and PTY; with both marks -1, RT_SEL stays 1. -/
theorem test_sreset_selective :
    (after .sreset (st { afterAB with ctrl := 0x00005#19, pty := 10#5 })).rgd.ps = afterAB.ps ∧
    (after .sreset (st { afterAB with ctrl := 0x00005#19, pty := 10#5 })).rgd.pty = 10#5 ∧
    (after .sreset (st (fed Rgd.reset (grp 0x00 0x1234 0x2010 0 0 0x000F)))).rgd.rt.sel = .B := by decide

/-- FD-5, FD-6, FD-7, as instructions and as CMD writes. -/
theorem test_nop_and_reserved :
    nextOf (exec .nop (st afterAB)) = some (st afterAB) ∧ nextOf (exec (.wrCmd 0x00000000#32) (st afterAB)) = some (st afterAB) ∧
    nextOf (exec (.reserved 0x00000103#32) (st afterAB)) = some (st afterAB) ∧
    nextOf (exec (.wrCmd 0x00000103#32) (st afterAB)) = some (st afterAB) ∧
    nextOf (exec (.wrCmd 0x000000FF#32) (st afterAB)) = some (st afterAB) := by decide

/-- A CMD write of 3 feeds (L1-6). -/
theorem test_wrCmd_feeds : (after (.wrCmd 0x00000003#32) (load Rgd.reset abGroup)).rgd = afterAB := by decide

/-- L1-6 and L1-1: the whole effect of one FEED. -/
theorem test_feed_example :
    firstBytes 9 afterAB.ps.buf = [0x41#8, 0x42#8, 0x20#8, 0x20#8, 0x20#8, 0x20#8, 0x20#8, 0x20#8, 0x00#8] ∧
    afterAB.ps.avail = true ∧ afterAB.pi = { code := 0x1234#16, shadow := 0x1234#16, avail := true } ∧
    afterAB.ready = 0b000101#6 ∧ afterAB.cls = 0x0002#16 ∧ afterAB.rt = Rgd.reset.rt ∧ afterAB.ct = Rgd.reset.ct ∧
    afterAB.pty = 0#5 := by decide

/-- FD-1, FD-2, FD-3, FD-4, CL-7, PS-9: the gates and the routing. -/
theorem test_feed_routing :
    (fed Rgd.reset (grp 0x00 0x1234 0x5000 0x4142 0x4344 0)).ps = Rgd.reset.ps ∧
    (fed Rgd.reset (grp 0x00 0x1234 0x5000 0x4142 0x4344 0)).cls = 0x0052#16 ∧
    (fed Rgd.reset (grp 0x00 0x1234 0x0000 0 0x4142 0x0020)).ps = Rgd.reset.ps ∧
    (fed Rgd.reset (grp 0x00 0x1234 0x0000 0 0x4142 0x0020)).cls = 0x0802#16 ∧
    (fed Rgd.reset (grp 0x00 0x1234 0x0000 0 0x4142 0x0020)).pi.avail = true ∧
    (fed { Rgd.reset with thr := 0x008#10 } (grp 0x00 0x1234 0x0000 0 0x4142 0x0020)).ps = afterAB.ps ∧
    (fed { Rgd.reset with ctrl := 0x2FFFF#19 } (grp 0x00 0x1234 0x1000 0 0x4142 0)).ps = Rgd.reset.ps ∧
    (fed Rgd.reset (grp 0x10 0 0x2000 0 0 0x00E4)).cls = 0x1B23#16 ∧
    (fed { Rgd.reset with ctrl := 0x20004#19 } abGroup).ps = Rgd.reset.ps := by decide

/-! The units of a FEED. -/

/-- CL-1 to CL-6. -/
theorem test_classifier :
    (errorLevel (grp 0 0 0 0 0 0x00E4) .A, errorLevel (grp 0 0 0 0 0 0x00E4) .B,
      errorLevel (grp 0 0 0 0 0 0x00E4) .C, errorLevel (grp 0 0 0 0 0 0xFFE4) .D) = (3#2, 2#2, 1#2, 0#2) ∧
    protocolVersion (grp 0xEF 0 0 0 0 0) = .A ∧ protocolVersion (grp 0x10 0 0 0 0 0) = .B ∧
    groupType (grp 0 0 0x2A15 0 0 0) = 2#4 ∧ groupType (grp 0 0 0xF000 0 0 0) = 15#4 ∧
    accept 1 0 = false ∧ accept 1 1 = true ∧ accept 2 1 = false ∧ accept 3 3 = true := by decide

/-- PI-2, PI-3, PI-4, PI-5, PI-6, PI-8, PI-9, PI-11. -/
theorem test_pi :
    (fed Rgd.reset (grp 0x00 0x1234 0x5000 0 0 0x0040)).pi = Rgd.reset.pi ∧
    (fed Rgd.reset (grp 0x00 0x1234 0x5000 0x9999 0 0x0000)).pi.code = 0x1234#16 ∧
    (fed Rgd.reset (grp 0x10 0x1111 0x5000 0x2222 0 0x0080)).pi.code = 0x2222#16 ∧
    (fed Rgd.reset (grp 0x10 0x1111 0x5000 0x2222 0 0x0044)).pi.avail = false ∧
    (fed { Rgd.reset with thr := 1#10 } (grp 0x10 0x1111 0x5000 0x2222 0 0x0044)).pi.code = 0x1111#16 ∧
    (fed { Rgd.reset with thr := 2#10 } (grp 0x10 0x1111 0x5000 0x2222 0 0x00C8)).pi.code = 0x2222#16 ∧
    (fed Rgd.reset (grp 0x00 0x0000 0x5000 0 0 0)).pi.avail = true ∧
    (fed Rgd.reset (grp 0x00 0x0000 0x5000 0 0 0)).ready = 0b000001#6 ∧
    (fed afterAB (grp 0x00 0x5678 0x5000 0 0 0)).pi.shadow = 0x5678#16 := by decide

/-- PTY-1 to PTY-8. -/
theorem test_pty :
    (fed ptyOn (grp 0 0 0x0140 0 0 0)).pty = 10#5 ∧ (fed ptyOn (grp 0 0 0x0140 0 0 0)).ready.getLsbD 1 = true ∧
    (fed { ptyOn with pty := 10#5 } (grp 0 0 0x0140 0 0 0)).ready.getLsbD 1 = false ∧
    (fed { ptyOn with pty := 10#5 } (grp 0 0 0x0000 0 0 0)).pty = 10#5 ∧
    (fed { ptyOn with pty := 10#5 } (grp 0 0 0x0060 0 0 0)).pty = 3#5 ∧
    (fed ptyOn (grp 0 0 0x00A0 0 0 0x0030)).pty = 5#5 ∧ (fed Rgd.reset (grp 0 0 0x00A0 0 0 0)).pty = 0#5 ∧
    (fed ptyOn (grp 0 0 0x03E0 0 0 0)).pty = 31#5 := by decide

/-- PS-2 to PS-7, L1-9. -/
theorem test_ps :
    (fed { afterAB with ready := 0#6 } abGroup).ready = 0#6 ∧
    firstBytes 8 (fed Rgd.reset (grp 0 0 0x0003 0 0x3120 0)).ps.buf =
      [0x20#8, 0x20#8, 0x20#8, 0x20#8, 0x20#8, 0x20#8, 0x31#8, 0x20#8] ∧
    (fed Rgd.reset (grp 0 0 0x0000 0 0x4142 0x0001)).ps = Rgd.reset.ps ∧
    firstBytes 4 (fed Rgd.reset (grp 0x10 0 0x000D 0 0x4344 0)).ps.buf = [0x20#8, 0x20#8, 0x43#8, 0x44#8] ∧
    (fed Rgd.reset (grp 0 0 0x0000 0 0x2020 0)).ps.avail = false ∧
    (fed Rgd.reset (grp 0 0 0x0000 0 0x0000 0)).ready.getLsbD 2 = true ∧
    (fed { afterAB with ready := 0#6, thr := 0x030#10 } (grp 0 0 0x0000 0 0x4158 0x0003)).ready.getLsbD 2 = true := by
  decide

/-- RT-1, RT-2, RT-4, RT-5, RT-7, RT-8, RT-14. -/
theorem test_rt :
    firstBytes 5 afterABCD.rt.buf0 = [0x41#8, 0x42#8, 0x43#8, 0x44#8, 0x20#8] ∧ afterABCD.rt.hwm0 = 4#8 ∧
    afterABCD.rt.hwm1 = 0xFF#8 ∧ afterABCD.ready.getLsbD 3 = true ∧
    (fed afterABCD (grp 0 0 0x2001 0x4546 0x4748 0x0003)).rt.hwm0 = 6#8 ∧
    firstBytes 8 (fed afterABCD (grp 0 0 0x2001 0x4546 0x4748 0x0003)).rt.buf0 =
      [0x41#8, 0x42#8, 0x43#8, 0x44#8, 0x45#8, 0x46#8, 0x20#8, 0x20#8] ∧
    (fed Rgd.reset (grp 0 0 0x2011 0x4142 0x4344 0x000F)).rt = { Rgd.reset.rt with sel := .B } ∧
    (fed Rgd.reset (grp 0 0 0x201F 0x2D2D 0x2E2E 0)).rt.hwm1 = 64#8 ∧
    byteAt (fed Rgd.reset (grp 0 0 0x201F 0x2D2D 0x2E2E 0)).rt.buf1 63 = 0x2E#8 ∧
    byteAt (fed Rgd.reset (grp 0 0 0x201F 0x2D2D 0x2E2E 0)).rt.buf1 64 = 0x00#8 ∧
    byteAt (fed Rgd.reset (grp 0x10 0 0x200F 0x0000 0x4142 0)).rt.buf0 31 = 0x42#8 ∧
    (fed Rgd.reset (grp 0x10 0 0x200F 0x0000 0x4142 0)).rt.hwm0 = 32#8 ∧
    (fed { Rgd.reset with rt := { Rgd.reset.rt with hwm0 := 8#8 } } (grp 0 0 0x2000 0x4142 0x4344 0)).rt.hwm0 = 8#8 ∧
    firstBytes 4 (fed { Rgd.reset with thr := 0x080#10 } (grp 0 0 0x2000 0x4142 0x4344 0x000E)).rt.buf0 =
      [0x20#8, 0x20#8, 0x43#8, 0x44#8] := by decide

/-- CT-1, CT-4, CT-5, CT-7, CT-8, CT-9a, CT-9b, CT-10, CT-11, CT-14. -/
theorem test_clock :
    afterClock.ct = { hour := 23#8, min := 30#8 } ∧ afterClock.ready.getLsbD 4 = true ∧
    (fed clockOn (grp 0 0 0x4000 0x0001 0xFEDF 0)).ct = { hour := 14#8, min := 59#8 } ∧
    (fed clockOn (grp 0 0 0x4000 0x0000 0x003F 0)).ct = { hour := 17#8, min := 0#8 } ∧
    (fed clockOn (grp 0 0 0x4000 0x0000 0x17A2 0x0004)).ct = Rgd.reset.ct ∧
    (fed clockOn (grp 0 0 0x4000 0x0000 0x17A2 0x0001)).ct = Rgd.reset.ct ∧
    (fed clockOn (grp 0 0 0x4000 0x0000 0xAFC0 0)).ct = { hour := 10#8, min := 63#8 } ∧
    (fed { Rgd.reset with ctrl := 0x60015#19 } (grp 0 0 0x4000 0x0000 0xAFC0 0)).ct = Rgd.reset.ct ∧
    (fed clockOn (grp 0x10 0 0x4000 0x0000 0x17A2 0)).ct = Rgd.reset.ct ∧
    (fed Rgd.reset (grp 0 0 0x4000 0x0000 0x17A2 0)).ct = Rgd.reset.ct ∧
    (fed clockOn (grp 0 0 0x4000 0xFFFE 0x17A2 0)).ct = { hour := 23#8, min := 30#8 } := by decide

/-- L1-5 and R120. -/
theorem test_ofsNormalize :
    ofsNormalize 1 (-2) = 23 ∧ ofsNormalize 23 2 = 1 ∧ ofsNormalize 24 0 = 0 ∧ ofsNormalize 31 31 = 14 ∧
    ofsNormalize 0 (-31) = 17 := by decide

/-! Host reads and writes. -/

/-- R154: register reads after reset, one for each. -/
theorem test_reads_after_reset :
    [Instr.rdCmd, .rdInStatus, .rdInBlkA, .rdInBlkB, .rdInBlkC, .rdInBlkD, .rdInErr, .rdCtrl, .rdThr, .rdReady,
      .rdPiStat, .rdPtyStat, .rdPsStat, .rdRtStat, .rdCtStat, .rdClass].map (fun i => lastRead (after i State.reset)) =
    [0, 0, 0, 0, 0, 0, 0, 0x00020005, 0, 0, 0, 0, 0, 0x00FFFF00, 0x0000FFFF, 0].map some := by decide

/-- HO-7, HO-8, HO-9, HO-10, and the classification of FD-1. -/
theorem test_reads_of_a_record :
    lastRead (after (.rdPsWin 0x080) (st afterAB)) = some 0x20204241#32 ∧
    lastRead (after (.rdPsWin 0x088) (st afterAB)) = some 0x00000000#32 ∧
    lastRead (after (.rdRtaWin 0x100) (st afterABCD)) = some 0x44434241#32 ∧
    lastRead (after (.rdRtbWin 0x1C0) (st afterABCD)) = some 0x00000000#32 ∧
    lastRead (after .rdRtStat (st { Rgd.reset with rt := { Rgd.reset.rt with sel := .B, hwm0 := 6#8 } })) =
      some 0x00FF0601#32 ∧
    lastRead (after .rdCtStat (st afterClock)) = some 0x00001E17#32 ∧
    lastRead (after .rdPiStat (st afterAB)) = some 0x00011234#32 ∧
    lastRead (after .rdPsStat (st afterAB)) = some 0x00000001#32 ∧
    lastRead (after .rdInBlkD (st afterAB)) = some 0x00004142#32 ∧
    lastRead (after (.rdReserved 0x01C) (st afterAB)) = some 0x00000000#32 := by decide

/-- R54: input writes. -/
theorem test_input_writes :
    (after (.wrInStatus 0x12345678#32) State.reset).rgd.inp = grp 0x78 0 0 0 0 0 ∧
    (after (.wrInBlkA 0x12345678#32) State.reset).rgd.inp = grp 0 0x5678 0 0 0 0 ∧
    (after (.wrInBlkB 0x12345678#32) State.reset).rgd.inp = grp 0 0 0x5678 0 0 0 ∧
    (after (.wrInBlkC 0x12345678#32) State.reset).rgd.inp = grp 0 0 0 0x5678 0 0 ∧
    (after (.wrInBlkD 0x12345678#32) State.reset).rgd.inp = grp 0 0 0 0 0x5678 0 ∧
    (after (.wrInErr 0x12345678#32) State.reset).rgd.inp = grp 0 0 0 0 0 0x5678 := by decide

/-- HO-2, HO-3, HO-5, HO-6. -/
theorem test_control_writes :
    lastRead (after .rdCtrl (after (.wrCtrl 0xFFFFFFFF#32) State.reset)) = some 0x0007FFFF#32 ∧
    lastRead (after .rdThr (after (.wrThr 0xFFFFFFFF#32) State.reset)) = some 0x000003FF#32 ∧
    (after (.wrReady 0x00000004#32) (st { Rgd.reset with ready := 0b001101#6 })).rgd.ready = 0b001001#6 ∧
    (after (.wrReady 0xFFFFFFFF#32) (st { Rgd.reset with ready := 0b011111#6 })).rgd.ready = 0b000000#6 := by decide

/-- HO-11 and R53: writes that are ignored. -/
theorem test_ignored_writes :
    [Instr.wrPiStat 0xFFFFFFFF#32, .wrPtyStat 0xFFFFFFFF#32, .wrPsStat 0xFFFFFFFF#32, .wrRtStat 0xFFFFFFFF#32,
      .wrCtStat 0xFFFFFFFF#32, .wrClass 0xFFFFFFFF#32, .wrPsWin 0x080 0xFFFFFFFF#32, .wrRtaWin 0x100 0xFFFFFFFF#32,
      .wrRtbWin 0x180 0xFFFFFFFF#32, .wrReserved 0x01C 0xFFFFFFFF#32].map (fun i => after i (st afterAB)) =
    List.replicate 10 (st afterAB) := by decide

/-! Witnesses: inputs that meet the hypotheses of each statement. -/

theorem test_witness_DecodeInvertsEncode :
    (Instr.rdRtbWin 0x1C0).wellFormed = true ∧ (Instr.reserved 0xFFFFFFFF#32).wellFormed = true := by decide

theorem test_witness_EncodeInvertsDecode :
    decode (.access (.write 7#32) 4 0x1FC) = .ok (.wrReserved 0x1FC 7#32) ∧ decode (.command 3#32) = .ok .feed := by
  decide

/-- A machine with its window at 0x200, so that there are addresses below it. -/
def high : State := { State.reset with host := { State.reset.host with pBaseBlock := 1 } }

/-- At the first and the last address of the window, an access that decodes and ones that do not. -/
theorem test_witness_UndefinedAccessesAreRefused :
    (pend high [acc .read 0x200]).host.pending = [acc .read 0x200] ∧
    0x200 * high.host.pBaseBlock ≤ 0x200 ∧ 0x3FF < 0x200 * high.host.pBaseBlock + 0x200 ∧
    nextOf (step (pend high [acc .read 0x200])) =
      some { high with host := { high.host with returned := [0x00000000#32] } } ∧
    refusalOf (step (pend high [acc .read 0x3FF])) = some (.contract (.misaligned 0x1FF)) ∧
    refusalOf (step (pend high [.access { dir := .read, bytes := 1, addr := 0x200 }])) =
      some (.contract (.notWordAccess 1)) := by decide

theorem test_witness_AccessesOutsideTheWindowAreRefused :
    0x1FF < 0x200 * high.host.pBaseBlock ∧ 0x200 * high.host.pBaseBlock + 0x200 ≤ 0x400 ∧
    refusalOf (step (pend high [acc .read 0x1FF])) = some (.outsideWindow 0x1FF) ∧
    refusalOf (step (pend high [acc .read 0x400])) = some (.outsideWindow 0x400) := by decide

theorem test_witness_StepRunsTheDecodedInstruction :
    (pend high [acc (.write 3#32) 0x200]).host.pending = [acc (.write 3#32) 0x200] ∧
    0x200 * high.host.pBaseBlock ≤ 0x200 ∧ 0x200 < 0x200 * high.host.pBaseBlock + 0x200 ∧
    decode (.access (.write 3#32) 4 (0x200 - 0x200 * high.host.pBaseBlock)) = .ok (.wrCmd 3#32) ∧
    high.host.pending = [] := by decide

theorem test_witness_CmdWriteRunsItsCommand : decode (.command 0x00000002#32) = .ok .sreset := by decide

/-- A queue with a write, a hardware reset, and reads at both ends of the window. -/
def queue : List HostEvent := [acc (.write 3#32) 0x200, acc .read 0x200, .hwReset, acc .read 0x3FC]

theorem test_witness_ContractAccessesAllComplete :
    (∀ e, e ∈ (pend high queue).host.pending → e.InContract (0x200 * (pend high queue).host.pBaseBlock)) ∧
    queue.countP HostEvent.isRead = 2 := by
  refine ⟨?_, by decide⟩
  intro e he
  fin_cases he <;> simp [HostEvent.InContract, acc, high, pend]

theorem test_witness_OnlyWritesAndResetChangeTheRgd :
    (∃ t, step (pend State.reset [acc (.write 5#32) 0x020]) = .next t ∧ t.rgd ≠ State.reset.rgd) ∧
    (∃ t, step (pend (st afterAB) [.hwReset]) = .next t ∧ t.rgd ≠ (st afterAB).rgd) :=
  ⟨⟨_, rfl, by decide⟩, ⟨_, rfl, by decide⟩⟩

theorem test_witness_HardwareResetSetsEveryElement :
    (pend (st afterAB) [.hwReset, acc .read 0]).host.pending = .hwReset :: [acc .read 0] := rfl

theorem test_witness_ReadsAfterReset :
    (Instr.rdRtbWin 0x1BC, 0x20202020#32) ∈
      (List.range 16).map (fun k => (Instr.rdRtbWin (0x180 + 4 * k), 0x20202020#32)) ∧
    high.rgd = State.reset.rgd := by decide

theorem test_witness_NopAndReservedWordsChangeNothing : 4 ≤ (0x00000004#32).toNat := by decide

theorem test_witness_SresetIsSelective :
    (∃ b, ((st afterABCD).rgd.rt.hwm b).toInt ≠ -1) ∧ (∀ b, ((st afterAB).rgd.rt.hwm b).toInt = -1) ∧
    (st afterAB).rgd.ctrl.getLsbD 17 = true ∧ (st { afterAB with ctrl := 0x00005#19 }).rgd.ctrl.getLsbD 17 = false :=
  ⟨⟨.A, by decide⟩, fun b => by cases b <;> decide, by decide, by decide⟩

theorem test_witness_Inv_after_text : afterABCD.Inv where
  terminated := by decide
  piShadowed := by decide
  psShadowed := by decide
  psBlank := by decide
  clock := by decide
  marks := fun s => by cases s <;> decide
  readyReserved := by decide
  classValid := by decide

theorem test_witness_Inv_with_name : afterAB.Inv where
  terminated := by decide
  piShadowed := by decide
  psShadowed := by decide
  psBlank := by decide
  clock := by decide
  marks := fun s => by cases s <;> decide
  readyReserved := by decide
  classValid := by decide

/-- SR-3: a state that meets the invariant, both marks -1 and RT_SEL 1. -/
def toggled : Rgd := fed Rgd.reset (grp 0x00 0x1234 0x2010 0 0 0x000F)

theorem test_witness_SresetAlwaysLeavesRadioTextBlank :
    toggled.Inv ∧ (∀ b, (toggled.rt.hwm b).toInt = -1) ∧ toggled.rt.sel = .B := by
  refine ⟨⟨by decide, by decide, by decide, by decide, by decide, fun s => ?_, by decide, by decide⟩,
    fun b => ?_, by decide⟩
  · cases s <;> decide
  · cases b <;> decide

theorem test_witness_WindowReadsReturnTheirBytes :
    (Instr.rdPsWin 0x088).wellFormed = true ∧ (Instr.rdRtaWin 0x140).wellFormed = true ∧
    (Instr.rdRtbWin 0x1C0).wellFormed = true ∧ (Instr.rdReserved 0x1FC).wellFormed = true ∧
    (Instr.rdReserved 0x01C).wellFormed = true := by decide

theorem test_witness_ReadsReturnTheRegisterMap :
    0x1FC < 0x200 ∧ 0x1FC % 4 = 0 ∧
    (pend high [acc .read 0x3FC]).host.pending =
      .access { dir := .read, bytes := 4, addr := 0x200 * high.host.pBaseBlock + 0x1FC } :: [] := by decide

theorem test_witness_RegisterWritesAreIdempotent :
    Instr.wrReady 7#32 ∈
      [Instr.wrInStatus 7#32, .wrInBlkA 7#32, .wrInBlkB 7#32, .wrInBlkC 7#32, .wrInBlkD 7#32, .wrInErr 7#32,
        .wrCtrl 7#32, .wrThr 7#32, .wrReady 7#32] ∧
    nextOf (exec (.wrReady 7#32) (st afterAB)) = some (after (.wrReady 7#32) (st afterAB)) := by decide

/-- Two groups that differ in ignored bits only. -/
theorem test_witness_IgnoredInputBitsHaveNoEffect :
    (grp 0x10 1 2 3 4 0x00E4).SameUsedBits (grp 0xFF 1 2 3 4 0x5AE4) ∧
    grp 0x10 1 2 3 4 0x00E4 ≠ grp 0xFF 1 2 3 4 0x5AE4 ∧ afterAB.SameRecord afterAB := by decide

/-- PI-4, PI-7, PI-9, PI-10, PI-2: the candidate from block C and from block A, new, new because nothing was accepted
before, the same again, and rejected. -/
theorem test_witness_FeedExtractsIdentification :
    (grp 0x10 0x1111 0x5000 0x2222 0 0x0080).piFromC ∧ ¬(grp 0x10 0x1111 0x5000 0x2222 0 0x0000).piFromC ∧
    (grp 0x10 0x1111 0x5000 0x2222 0 0x0080).level .C ≤ Rgd.reset.thr.toNat % 4 ∧ Rgd.reset.pi.avail = false ∧
    0x5678#16 ≠ afterAB.pi.shadow ∧ abGroup.blkA = afterAB.pi.shadow ∧ afterAB.pi.avail = true ∧
    ¬((grp 0x00 0x1234 0x5000 0 0 0x0040).level .A ≤ Rgd.reset.thr.toNat % 4) := by decide

theorem test_witness_BlockCIdentifiesOnlyUnderVersionB :
    (∃ t, exec .feed (load Rgd.reset (grp 0x10 0x1111 0x5000 0x2222 0 0x0080)) = .next t ∧
      t.rgd.pi ≠ Rgd.reset.pi ∧ t.rgd.pi.code ≠ 0x1111#16) ∧
    ¬abGroup.IsVersionB ∧ (0x000C#16).toNat / 64 % 4 = abGroup.level .A :=
  ⟨⟨_, rfl, by decide⟩, by decide⟩

/-- PTY-6, and PTY-3 and PTY-7. -/
theorem test_witness_FeedExtractsProgramType :
    (ptyOn.ctrl.getLsbD 16 = true ∧ (grp 0 0 0x00A0 0 0 0x0030).ptyNumber ≠ 0 ∧
      (grp 0 0 0x00A0 0 0 0x0030).ptyNumber ≠ ptyOn.pty.toNat) ∧
    (grp 0 0 0x0000 0 0 0).ptyNumber = 0 ∧ Rgd.reset.ctrl.getLsbD 16 = false := by decide

/-- PS-1 (a character changes) and PS-2 (none does). -/
theorem test_witness_FeedExtractsStationName :
    (load Rgd.reset abGroup).rgd.RoutedAs 0 ∧ (load afterAB abGroup).rgd.RoutedAs 0 ∧
    byteAt afterAB.ps.buf 0 ≠ byteAt Rgd.reset.ps.shadow 0 ∧
    (∀ i, i < 8 → byteAt (fed afterAB abGroup).ps.buf i = byteAt afterAB.ps.shadow i) := by decide

/-- RT-14 at segment 15 (RT-13): routed, version A, block C rejected and block D accepted. -/
theorem test_witness_FeedExtractsRadioTextVersionA :
    (load { Rgd.reset with thr := 0x080#10 } (grp 0x00 0 0x2A3F 0x4142 0x4344 0x000E)).rgd.RoutedAs 2 ∧
    ¬(grp 0x00 0 0x2A3F 0x4142 0x4344 0x000E).IsVersionB ∧ 15 = (0x2A3F#16).toNat % 16 ∧
    ¬(load { Rgd.reset with thr := 0x080#10 } (grp 0x00 0 0x2A3F 0x4142 0x4344 0x000E)).rgd.Accepts .C 6 ∧
    (load { Rgd.reset with thr := 0x080#10 } (grp 0x00 0 0x2A3F 0x4142 0x4344 0x000E)).rgd.Accepts .D 6 := by decide

/-- RT-7. -/
theorem test_witness_FeedExtractsRadioTextVersionB :
    (load Rgd.reset (grp 0x10 0 0x200F 0x0000 0x4142 0)).rgd.RoutedAs 2 ∧
    (grp 0x10 0 0x200F 0x0000 0x4142 0).IsVersionB ∧ 15 = (0x200F#16).toNat % 16 ∧
    (load Rgd.reset (grp 0x10 0 0x200F 0x0000 0x4142 0)).rgd.Accepts .D 6 := by decide

/-- CT-1 with the check on at minute 59, and CT-9b. -/
theorem test_witness_FeedExtractsClock :
    ((load { Rgd.reset with ctrl := 0x60015#19 } (grp 0 0 0x4000 0x0001 0xFEDF 0)).rgd.RoutedAs 4 ∧
      ¬(grp 0 0 0x4000 0x0001 0xFEDF 0).IsVersionB ∧
      (load { Rgd.reset with ctrl := 0x60015#19 } (grp 0 0 0x4000 0x0001 0xFEDF 0)).rgd.Accepts .C 8 ∧
      (load { Rgd.reset with ctrl := 0x60015#19 } (grp 0 0 0x4000 0x0001 0xFEDF 0)).rgd.Accepts .D 8 ∧
      (grp 0 0 0x4000 0x0001 0xFEDF 0).minuteNumber = 59) ∧
    (grp 0 0 0x4000 0x0000 0xAFC0 0).minuteNumber = 63 := by decide

theorem test_witness_FeedRunsAtMostOneRoutedExtractor :
    ¬(load Rgd.reset abGroup).rgd.RoutedAs 2 ∧ ¬(load Rgd.reset abGroup).rgd.RoutedAs 4 ∧
    ¬(load Rgd.reset (grp 0 0 0x2000 0 0 0)).rgd.RoutedAs 0 ∧ afterAB.ps ≠ Rgd.reset.ps ∧
    afterABCD.rt ≠ Rgd.reset.rt ∧ Rgd.reset.ctrl = 0x20005#19 := by decide

theorem test_witness_ExtractorOrderDoesNotMatter : afterAB.ready.getLsbD 0 = true ∧ afterAB.ready.getLsbD 2 = true := by
  decide

/-- The ends of the ranges: -31, -1, 0 and 62. -/
theorem test_witness_OffsetUnitIsTheEuclideanRemainder :
    ((0 : Int) ≤ 31 ∧ (-31 : Int) ≤ -31 ∧ (31 : Int) ≤ 31) ∧ (0 : Int) + -31 < 0 ∧ (0 : Int) + -1 < 0 ∧
    (0 : Int) ≤ 0 + 0 ∧ (0 : Int) ≤ 31 + 31 := by decide

theorem test_witness_RepeatedGroupIsQuietExceptTextAndClock :
    (load Rgd.reset abGroup).rgd.ready.getLsbD 3 = false ∧ (load Rgd.reset abGroup).rgd.ready.getLsbD 4 = false := by
  decide

/-- Each of the eight registers is changed by its own write. -/
theorem test_witness_OnlyTheirOwnWritesChangeConfigurationAndInputs :
    (after (.wrCtrl 1#32) State.reset).rgd.ctrl ≠ State.reset.rgd.ctrl ∧
    (after (.wrThr 1#32) State.reset).rgd.thr ≠ State.reset.rgd.thr ∧
    (after (.wrInStatus 1#32) State.reset).rgd.inp.status ≠ State.reset.rgd.inp.status ∧
    (after (.wrInBlkA 1#32) State.reset).rgd.inp.blkA ≠ State.reset.rgd.inp.blkA ∧
    (after (.wrInBlkB 1#32) State.reset).rgd.inp.blkB ≠ State.reset.rgd.inp.blkB ∧
    (after (.wrInBlkC 1#32) State.reset).rgd.inp.blkC ≠ State.reset.rgd.inp.blkC ∧
    (after (.wrInBlkD 1#32) State.reset).rgd.inp.blkD ≠ State.reset.rgd.inp.blkD ∧
    (after (.wrInErr 1#32) State.reset).rgd.inp.err ≠ State.reset.rgd.inp.err := by decide

/-- SRESET takes each of them back. -/
theorem test_witness_OnlyResetCommandsTakeAvailabilityBack :
    afterAB.pi.avail = true ∧ (after .sreset (st afterAB)).rgd.pi.avail = false ∧
    afterAB.ps.avail = true ∧ (after .sreset (st afterAB)).rgd.ps.avail = false ∧
    (after .sreset (st { afterAB with pty := 10#5 })).rgd.pty = 0#5 ∧
    afterClock.ct.hour.toInt ≠ -1 ∧ (after (.wrCmd 2#32) (st afterClock)).rgd.ct.hour.toInt = -1 ∧
    afterClock.ct.min.toInt ≠ -1 ∧ (after .init (st afterClock)).rgd.ct.min.toInt = -1 := by decide

/-- RT-1 raises a mark; SRESET sets it to -1. -/
theorem test_witness_MarksNeverDecrease :
    nextOf (exec .feed (load Rgd.reset afterABCD.inp)) = some (st afterABCD) ∧
    (∃ t, exec .sreset (st afterABCD) = .next t ∧ (t.rgd.rt.hwm .A).toInt = -1) :=
  ⟨by decide, ⟨_, rfl, by decide⟩⟩

theorem test_witness_NoReadShowsTheShadows :
    afterAB.SameButShadows
      { afterAB with pi := { afterAB.pi with shadow := 0x5555#16 }, ps := { afterAB.ps with shadow := Rgd.reset.ps.shadow } } ∧
    afterAB.pi.shadow ≠ 0x5555#16 ∧ afterAB.ps.shadow ≠ Rgd.reset.ps.shadow := by decide

/-- A step that writes text, from a state that meets each invariant of a step. -/
theorem test_witness_invariants_of_a_step :
    afterABCD.Terminated ∧ afterABCD.PiShadowed ∧ afterABCD.PsShadowed ∧ afterABCD.MarksBoundText ∧
    (∃ t, step (pend (st afterABCD) [acc (.write 3#32) 0x000]) = .next t) :=
  ⟨by decide, by decide, by decide, fun s => by cases s <;> decide, ⟨_, rfl⟩⟩

/-- CT_MINCHK set, the minute at 30, and a step. -/
theorem test_witness_ClockFieldsStayInRange :
    { afterClock with ctrl := 0x60015#19 : Rgd }.ClockValid ∧
    { afterClock with ctrl := 0x60015#19 : Rgd }.ctrl.getLsbD 18 = true ∧ afterClock.ct.min.toInt ≤ 59 ∧
    (∃ t, step (pend (st { afterClock with ctrl := 0x60015#19 }) [acc (.write 3#32) 0x000]) = .next t) :=
  ⟨by decide, by decide, by decide, ⟨_, rfl⟩⟩

/-- No name yet, and a group that brings one; a name already there. -/
theorem test_witness_NameAvailabilityRisesWithTheFirstCharacter :
    toggled.Inv ∧ toggled.ps.avail = false ∧ afterAB.Inv ∧ afterAB.ps.avail = true ∧
    (fed toggled abGroup).ps.avail = true :=
  ⟨test_witness_SresetAlwaysLeavesRadioTextBlank.1, by decide, test_witness_Inv_with_name, by decide, by decide⟩

theorem test_witness_EveryStepKeepsTheInvariants :
    afterABCD.Inv ∧ (∃ t, step (pend (st afterABCD) [acc (.write 3#32) 0x000]) = .next t) :=
  ⟨test_witness_Inv_after_text, ⟨_, rfl⟩⟩

theorem test_witness_FeedPseudoInstructionFeedsItsOperands :
    (pend high (feedWrites 0x200 0x00 0x1234 0 0 0x4142 0 ++ [acc .read 0x228])).host.pending =
      feedWrites (0x200 * high.host.pBaseBlock) 0x00 0x1234 0 0 0x4142 0 ++ [acc .read 0x228] := by decide

/-- A step that a machine one block higher takes as well. -/
theorem test_witness_PlacementOfTheWindowDoesNotMatter :
    nextOf (step (pend State.reset [acc (.write 5#32) 0x024])) = some { State.reset with rgd := { Rgd.reset with thr := 5#10 } } ∧
    (pend State.reset [acc (.write 5#32) 0x024]).shift 1 = pend high [acc (.write 5#32) 0x224] := by decide

end Sys2Proof.Tests
end

section
/-! PROOFS of the family 00_scope.md. First what the bus does, said once: which accesses decode and to what (R47, R48),
that a fetched read only answers the host (R52, R135) and a fetched write only runs a function of the RGD (R57, R136),
and the equations of `step`. Then how moving the window commutes with these (R46), and the obligations. -/

namespace Sys2Proof.Machine

/-! Decoding an access (R47, R48). -/

/-- The instruction that an access to a register or window carries: the BUS_READ and BUS_WRITE rows in one. -/
def busInstr (off : Nat) (r : Reg) : Dir → Instr
  | .read => readInstr off r
  | .write v => writeInstr off v r

theorem decode_access_eq_ok {d : Dir} {bytes off : Nat} {i : Instr} :
    decode (.access d bytes off) = .ok i ↔
      bytes = 4 ∧ off % 4 = 0 ∧ ∃ r, regAt off = some r ∧ busInstr off r d = i := by
  simp only [decode, decodeAccess]
  split
  next hbytes => simp [hbytes]
  next hbytes =>
    split
    next halign => simp [halign]
    next halign =>
      rw [not_not] at hbytes halign
      cases regAt off with
      | none => simp
      | some r => cases d <;> simp [hbytes, halign, busInstr]

/-- The rows of the register map cover every word offset of the window (R48). -/
theorem regAt_of_word_offset {off : Nat} (halign : off % 4 = 0) (hlt : off < 0x200) : ∃ r, regAt off = some r := by
  have hrows : ∀ n : Fin 128, (regAt (4 * n.val)).isSome = true := by decide
  have hoff : 4 * (off / 4) = off := by omega
  simpa only [hoff, Option.isSome_iff_exists] using hrows ⟨off / 4, by omega⟩

/-- The converse of `fetch_eq_ok`. -/
theorem fetch_of_decode {h : HostPort} {a : HostAccess} {off : Nat} {i : Instr}
    (hoff : h.windowOffset a.addr = some off) (hdec : decode (.access a.dir a.bytes off) = .ok i) :
    fetch h a = .ok i := by
  simp only [fetch, hoff, hdec]

/-- Every access of the interface contract is fetched (R45, R47). -/
theorem fetch_of_inContract {h : HostPort} {a : HostAccess}
    (hc : (HostEvent.access a).InContract (0x200 * h.pBaseBlock)) : ∃ i, fetch h a = .ok i := by
  obtain ⟨hbytes, hlow, hhigh, halign⟩ := hc
  obtain ⟨r, hr⟩ := regAt_of_word_offset halign (by omega)
  have hoff := windowOffset_eq_some.mpr ⟨hlow, hhigh, rfl⟩
  exact ⟨_, fetch_of_decode hoff (decode_access_eq_ok.mpr ⟨hbytes, halign, r, hr, rfl⟩)⟩

/-! What a fetched access does. -/

/-- A read returns a value that the RGD determines, and does nothing else (R52, R135). -/
theorem exec_readInstr (off : Nat) (r : Reg) :
    ∃ v : Rgd → Word, ∀ s : State, exec (readInstr off r) s = .next (s.answer (v s.rgd)) := by
  cases r with
  | cmd => exact ⟨fun _ => 0x00000000#32, fun _ => rfl⟩
  | inStatus => exact ⟨fun r => r.inp.status.setWidth 32, fun _ => rfl⟩
  | inBlkA => exact ⟨fun r => r.inp.blkA.setWidth 32, fun _ => rfl⟩
  | inBlkB => exact ⟨fun r => r.inp.blkB.setWidth 32, fun _ => rfl⟩
  | inBlkC => exact ⟨fun r => r.inp.blkC.setWidth 32, fun _ => rfl⟩
  | inBlkD => exact ⟨fun r => r.inp.blkD.setWidth 32, fun _ => rfl⟩
  | inErr => exact ⟨fun r => r.inp.err.setWidth 32, fun _ => rfl⟩
  | reserved => exact ⟨fun _ => 0x00000000#32, fun _ => rfl⟩
  | ctrl => exact ⟨fun r => r.ctrl.setWidth 32, fun _ => rfl⟩
  | thr => exact ⟨fun r => r.thr.setWidth 32, fun _ => rfl⟩
  | ready => exact ⟨fun r => r.ready.setWidth 32, fun _ => rfl⟩
  | piStat => exact ⟨piStatWord, fun _ => rfl⟩
  | ptyStat => exact ⟨fun r => r.pty.setWidth 32, fun _ => rfl⟩
  | psStat => exact ⟨psStatWord, fun _ => rfl⟩
  | rtStat => exact ⟨rtStatWord, fun _ => rfl⟩
  | ctStat => exact ⟨ctStatWord, fun _ => rfl⟩
  | cls => exact ⟨fun r => r.cls.setWidth 32, fun _ => rfl⟩
  | psWin => exact ⟨fun r => windowWord r.ps.buf (off - psWinBase), fun _ => rfl⟩
  | rtaWin => exact ⟨fun r => windowWord r.rt.buf0 (off - rtaWinBase), fun _ => rfl⟩
  | rtbWin => exact ⟨fun r => windowWord r.rt.buf1 (off - rtbWinBase), fun _ => rfl⟩

/-- A command runs a function of the RGD and leaves the host port (R5); NOP and the reserved words run the identity. -/
theorem runCommand_eq_onRgd (c : Command) : ∃ f, ∀ s : State, runCommand c s = .next (s.onRgd f) := by
  cases c with
  | nop | reserved => exact ⟨id, fun _ => rfl⟩
  | init => exact ⟨init, fun _ => rfl⟩
  | sreset => exact ⟨sreset, fun _ => rfl⟩
  | feed => exact ⟨feed, fun _ => rfl⟩

/-- A write runs a function of the RGD and leaves the host port (R57, R136, R137); an ignored write runs the
identity (R53). -/
theorem exec_writeInstr (off : Nat) (v : Word) (r : Reg) :
    ∃ f, ∀ s : State, exec (writeInstr off v r) s = .next (s.onRgd f) := by
  cases r with
  | cmd => exact runCommand_eq_onRgd (decodeCommand v)
  | inStatus | inBlkA | inBlkB | inBlkC | inBlkD | inErr | ctrl | thr | ready => exact ⟨_, fun _ => rfl⟩
  | reserved | piStat | ptyStat | psStat | rtStat | ctStat | cls | psWin | rtaWin | rtbWin =>
    exact ⟨id, fun _ => rfl⟩

/-- What running a fetched access does, by its direction, from every state. -/
theorem exec_of_fetch {h : HostPort} {a : HostAccess} {i : Instr} (hf : fetch h a = .ok i) :
    (a.dir = .read ∧ ∃ v : Rgd → Word, ∀ s : State, exec i s = .next (s.answer (v s.rgd))) ∨
    (∃ w, a.dir = .write w ∧ ∃ f, ∀ s : State, exec i s = .next (s.onRgd f)) := by
  obtain ⟨off, -, hdec⟩ := fetch_eq_ok hf
  obtain ⟨-, -, r, -, rfl⟩ := decode_access_eq_ok.mp hdec
  cases a.dir with
  | read => exact .inl ⟨rfl, exec_readInstr off r⟩
  | write w => exact .inr ⟨w, rfl, exec_writeInstr off w r⟩

/-! The equations of `step`, one for each kind of event that it takes (R60). -/

theorem step_of_pending_nil {s : State} (hp : s.host.pending = []) : step s = .next s := by
  simp only [step, hp]

theorem step_of_hwReset {s : State} {rest : List HostEvent} (hp : s.host.pending = .hwReset :: rest) :
    step s = .next (hwReset (s.taken rest)) := by
  simp only [step, hp]

theorem step_of_fetch {s : State} {a : HostAccess} {rest : List HostEvent} {i : Instr}
    (hp : s.host.pending = .access a :: rest) (hf : fetch s.host a = .ok i) : step s = exec i (s.taken rest) := by
  simp only [step, hp, hf]

/-- A step takes an event of the contract, leaves the rest of the queue and the window's place, and returns one value
where the event is a read (R5, R60, R140). -/
theorem step_of_inContract {s : State} {e : HostEvent} {rest : List HostEvent}
    (hp : s.host.pending = e :: rest) (hc : e.InContract (0x200 * s.host.pBaseBlock)) :
    ∃ t, step s = .next t ∧ t.host.pending = rest ∧ t.host.pBaseBlock = s.host.pBaseBlock ∧
      t.host.returned.length = s.host.returned.length + (if e.isRead then 1 else 0) := by
  cases e with
  | hwReset => exact ⟨_, step_of_hwReset hp, rfl, rfl, rfl⟩
  | access a =>
    obtain ⟨i, hf⟩ := fetch_of_inContract hc
    rcases exec_of_fetch hf with ⟨hdir, v, hv⟩ | ⟨w, hdir, f, hw⟩
    · exact ⟨_, (step_of_fetch hp hf).trans (hv _), rfl, rfl, by simp [HostEvent.isRead, hdir]⟩
    · exact ⟨_, (step_of_fetch hp hf).trans (hw _), rfl, rfl, by simp [HostEvent.isRead, hdir]⟩

/-- Running `k + 1` steps is one step and then `k`. -/
theorem run_succ_of_step {s t : State} (k : Nat) (h : step s = .next t) :
    Host.Core.run Sys2Proof.core (k + 1) s = Host.Core.run Sys2Proof.core k t := by
  have hcore : Sys2Proof.core.step s = .next t := h
  simp only [Host.Core.run, hcore]

/-! Moving the window (R46). -/

@[simp] theorem State.shift_pending (k : Nat) (s : State) :
    (s.shift k).host.pending = s.host.pending.map (HostEvent.shift k) := rfl

@[simp] theorem State.shift_rgd (k : Nat) (s : State) : (s.shift k).rgd = s.rgd := rfl

theorem State.shift_onRgd (k : Nat) (s : State) (f : Rgd → Rgd) : (s.onRgd f).shift k = (s.shift k).onRgd f := rfl

theorem State.shift_answer (k : Nat) (s : State) (v : Word) : (s.answer v).shift k = (s.shift k).answer v := rfl

theorem State.shift_taken (k : Nat) (s : State) (rest : List HostEvent) :
    (s.taken rest).shift k = (s.shift k).taken (rest.map (HostEvent.shift k)) := rfl

theorem State.shift_hwReset (k : Nat) (s : State) : (hwReset s).shift k = hwReset (s.shift k) := rfl

/-- An address moved with the window reaches the same offset (R46). -/
theorem windowOffset_shift {k addr off : Nat} {s : State} (h : s.host.windowOffset addr = some off) :
    (s.shift k).host.windowOffset (addr + 0x200 * k) = some off := by
  rw [windowOffset_eq_some] at h ⊢
  simp only [State.shift]
  omega

/-- An access moved with the window carries the same instruction. -/
theorem fetch_shift {k : Nat} {s : State} {a : HostAccess} {i : Instr} (hf : fetch s.host a = .ok i) :
    fetch (s.shift k).host { a with addr := a.addr + 0x200 * k } = .ok i := by
  obtain ⟨off, hoff, hdec⟩ := fetch_eq_ok hf
  exact fetch_of_decode (windowOffset_shift hoff) hdec

/-- A fetched access runs alike wherever the window lies, since it neither reads nor writes its place. -/
theorem exec_shift_of_fetch {h : HostPort} {a : HostAccess} {i : Instr} {s t : State} (k : Nat)
    (hf : fetch h a = .ok i) (he : exec i s = .next t) : exec i (s.shift k) = .next (t.shift k) := by
  rcases exec_of_fetch hf with ⟨-, v, hv⟩ | ⟨-, -, f, hw⟩
  · cases (hv s).symm.trans he
    rw [hv, State.shift_answer, State.shift_rgd]
  · cases (hw s).symm.trans he
    rw [hw, State.shift_onRgd]

/-! The obligations. -/

/-- Settles O10, by induction on the queue: each step takes one event of the contract and leaves the others to a
window that has not moved. -/
theorem contractAccessesAllComplete : Obligations.ContractAccessesAllComplete := by
  unfold Obligations.ContractAccessesAllComplete
  intro s
  generalize hp : s.host.pending = queue
  induction queue generalizing s with
  | nil => exact fun _ => ⟨s, rfl, hp, rfl⟩
  | cons e rest ih =>
    intro hc
    rw [List.forall_mem_cons] at hc
    obtain ⟨hhead, hrest⟩ := hc
    obtain ⟨t, hstep, hpend, hbase, hret⟩ := step_of_inContract hp hhead
    obtain ⟨u, hrun, hdone, hcount⟩ := ih t hpend (by rwa [hbase])
    refine ⟨u, (run_succ_of_step rest.length hstep).trans hrun, hdone, ?_⟩
    rw [hcount, hret, List.countP_cons]
    omega

/-- Settles O11: a step that waits or runs a fetched read leaves the RGD, so one that changes it took a hardware reset
or a write. -/
theorem onlyWritesAndResetChangeTheRgd : Obligations.OnlyWritesAndResetChangeTheRgd := by
  unfold Obligations.OnlyWritesAndResetChangeTheRgd
  intro s t hstep hne
  rcases step_cases hstep with ⟨-, rfl⟩ | ⟨rest, hp, -⟩ | ⟨a, rest, i, hp, hf, he⟩
  · exact absurd rfl hne
  · exact .inl ⟨rest, hp⟩
  · rcases exec_of_fetch hf with ⟨-, v, hv⟩ | ⟨w, hdir, -⟩
    · cases (hv _).symm.trans he
      exact absurd rfl hne
    · exact .inr ⟨a, w, rest, hp, hdir⟩

/-- Settles O57, by what the step took: each kind of event has its counterpart in the moved queue. -/
theorem placementOfTheWindowDoesNotMatter : Obligations.PlacementOfTheWindowDoesNotMatter := by
  unfold Obligations.PlacementOfTheWindowDoesNotMatter
  intro k s t hstep
  have hmoved := State.shift_pending k s
  rcases step_cases hstep with ⟨hp, rfl⟩ | ⟨rest, hp, rfl⟩ | ⟨a, rest, i, hp, hf, he⟩
  all_goals rw [hp] at hmoved
  · exact step_of_pending_nil hmoved
  · rw [step_of_hwReset hmoved, ← State.shift_taken, ← State.shift_hwReset]
  · rw [step_of_fetch hmoved (fetch_shift hf), ← State.shift_taken]
    exact exec_shift_of_fetch k hf he

end Sys2Proof.Machine
end

section
/-! PROOFS of the family 10_state.md. First what an instruction and a step do to the record, said once: a FEED, or each
group kept or cleared. Then what a FEED does to each group, group by group, with the invariants it keeps (R37 to R42);
the input bits it ignores (R65, R66); and the obligations. -/

namespace Sys2Proof.Machine

/-! What an instruction and a step do to the record (R126, R128, R131). -/

/-- What a read, a register write and an ignored access leave: the record, but for ready bits that a write to READY
clears (R52, R54, R56). -/
structure Rgd.RecordKept (r r' : Rgd) : Prop where
  pi : r'.pi = r.pi
  pty : r'.pty = r.pty
  ps : r'.ps = r.ps
  rt : r'.rt = r.rt
  ct : r'.ct = r.ct
  cls : r'.cls = r.cls
  ready : ∀ i, r'.ready.getLsbD i = true → r.ready.getLsbD i = true

theorem Rgd.RecordKept.refl (r : Rgd) : r.RecordKept r := ⟨rfl, rfl, rfl, rfl, rfl, rfl, fun _ => id⟩

theorem Rgd.RecordKept.clearReady (r : Rgd) (v : Word) : r.RecordKept (r.clearReady v) where
  pi := rfl
  pty := rfl
  ps := rfl
  rt := rfl
  ct := rfl
  cls := rfl
  ready i h := by
    rw [Rgd.clearReady_ready, BitVec.getLsbD_and, Bool.and_eq_true] at h
    exact h.1

/-- What an instruction does to the record, and which command it is where it does more than keep it. -/
theorem exec_record_cases {i : Instr} {s t : State} (h : exec i s = .next t) :
    ((i = .init ∨ i = .wrCmd 0x00000001#32) ∧ t.rgd = init s.rgd) ∨
    ((i = .sreset ∨ i = .wrCmd 0x00000002#32) ∧ t.rgd = sreset s.rgd) ∨
    t.rgd = feed s.rgd ∨ s.rgd.RecordKept t.rgd := by
  rcases exec_cases h with rfl | ⟨v, rfl⟩ | ⟨f, hf, rfl⟩
  · exact .inr (.inr (.inr (.refl _)))
  · exact .inr (.inr (.inr (.refl _)))
  · cases hf with
    | init => exact .inl ⟨.inl rfl, rfl⟩
    | wrInit => exact .inl ⟨.inr rfl, rfl⟩
    | sreset => exact .inr (.inl ⟨.inl rfl, rfl⟩)
    | wrSreset => exact .inr (.inl ⟨.inr rfl, rfl⟩)
    | feed | wrFeed => exact .inr (.inr (.inl rfl))
    | status | blkA | blkB | blkC | blkD | err | ctrl | thr =>
      exact .inr (.inr (.inr ⟨rfl, rfl, rfl, rfl, rfl, rfl, fun _ => id⟩))
    | ready v => exact .inr (.inr (.inr (.clearReady _ v)))

/-- Every group of the record is kept, or is back at its initial value (R43), and no ready bit is newly set. -/
structure Rgd.KeptOrCleared (r r' : Rgd) : Prop where
  pi : r'.pi = r.pi ∨ r'.pi = PiGroup.initial
  ps : r'.ps = r.ps ∨ r'.ps = PsGroup.initial
  rt : r'.rt = r.rt ∨ r'.rt = RtGroup.initial
  ct : r'.ct = r.ct ∨ r'.ct = CtGroup.initial
  cls : r'.cls = r.cls ∨ r'.cls = 0x0000#16
  ready : ∀ i, r'.ready.getLsbD i = true → r.ready.getLsbD i = true

theorem Rgd.RecordKept.keptOrCleared {r r' : Rgd} (h : r.RecordKept r') : r.KeptOrCleared r' :=
  ⟨.inl h.pi, .inl h.ps, .inl h.rt, .inl h.ct, .inl h.cls, h.ready⟩

theorem reset_keptOrCleared (r : Rgd) : r.KeptOrCleared Rgd.reset :=
  ⟨.inr rfl, .inr rfl, .inr rfl, .inr rfl, .inr rfl, by simp [Rgd.reset]⟩

theorem init_keptOrCleared (r : Rgd) : r.KeptOrCleared (init r) :=
  ⟨.inr rfl, .inr rfl, .inr rfl, .inr rfl, .inr rfl, by simp⟩

/-- SRESET leaves the RT group or clears it, by whether a buffer is partially filled (R131). -/
theorem sreset_rt (r : Rgd) : (sreset r).rt = r.rt ∨ (sreset r).rt = RtGroup.initial := by
  simp only [sreset, Rgd.initialRDY_rt, sresetPS_rt, sresetRT]
  split
  · exact .inr rfl
  · exact .inl rfl

/-- SRESET clears the name and the program type where CTRL.SR_PS asks for it, and else leaves both (R131). -/
theorem sreset_ps_pty (r : Rgd) :
    (r.ctrl.getLsbD 17 = true ∧ (sreset r).ps = PsGroup.initial ∧ (sreset r).pty = 0#5) ∨
    (r.ctrl.getLsbD 17 = false ∧ (sreset r).ps = r.ps ∧ (sreset r).pty = r.pty) := by
  simp only [sreset, Rgd.initialRDY_ps, Rgd.initialRDY_pty, sresetPS, Rgd.srPs, sresetRT_ctrl, Rgd.initialCT_ctrl,
    Rgd.initialPI_ctrl]
  split
  next h => exact .inl ⟨h, rfl, rfl⟩
  next h => exact .inr ⟨by simpa using h, by simp, by simp⟩

@[simp] theorem sreset_pi (r : Rgd) : (sreset r).pi = PiGroup.initial := by simp [sreset]

@[simp] theorem sreset_ct (r : Rgd) : (sreset r).ct = CtGroup.initial := by simp [sreset]

theorem sreset_keptOrCleared (r : Rgd) : r.KeptOrCleared (sreset r) where
  pi := .inr (sreset_pi r)
  ps := by
    rcases sreset_ps_pty r with ⟨-, h, -⟩ | ⟨-, h, -⟩
    · exact .inr h
    · exact .inl h
  rt := sreset_rt r
  ct := .inr (sreset_ct r)
  cls := .inl (sreset_cls r)
  ready := by simp [sreset]

/-- Every step but one that runs a FEED keeps each group of the record or clears it. -/
theorem step_feed_or_keptOrCleared {s t : State} (h : step s = .next t) :
    t.rgd = feed s.rgd ∨ s.rgd.KeptOrCleared t.rgd := by
  rcases step_cases h with ⟨-, rfl⟩ | ⟨rest, -, rfl⟩ | ⟨a, rest, i, -, -, he⟩
  · exact .inr (Rgd.RecordKept.refl _).keptOrCleared
  · exact .inr (reset_keptOrCleared _)
  · rcases exec_record_cases he with ⟨-, ht⟩ | ⟨-, ht⟩ | ht | ht
    · exact .inr (ht ▸ init_keptOrCleared _)
    · exact .inr (ht ▸ sreset_keptOrCleared _)
    · exact .inl ht
    · exact .inr ht.keptOrCleared

/-- An invariant `P` that reads one group `G` of the record is kept by every step, where it holds at reset and FEED
keeps it: every other step keeps the group or puts it at its reset value. -/
theorem step_keeps_group {α : Type} {G : Rgd → α} {P : Rgd → Prop}
    (hgroup : ∀ r r', G r' = G r → P r → P r')
    (hkept : ∀ {r r'}, Rgd.KeptOrCleared r r' → G r' = G r ∨ G r' = G Rgd.reset)
    (hreset : P Rgd.reset) (hfeed : ∀ r, P r → P (feed r))
    {s t : State} (hs : P s.rgd) (hstep : step s = .next t) : P t.rgd := by
  rcases step_feed_or_keptOrCleared hstep with ht | ht
  · exact ht ▸ hfeed _ hs
  · rcases hkept ht with hG | hG
    · exact hgroup _ _ hG hs
    · exact hgroup _ _ hG hreset

/-! What a FEED does to each group (R121): it leaves a group that stands behind the dispatcher, or writes it as the
group's extractor does (R123). -/

theorem feed_cases (r : Rgd) :
    feed r = beforeDispatch r ∨ feed r = psExtract (beforeDispatch r) ∨ feed r = rtExtract (beforeDispatch r) ∨
    feed r = ctExtract (beforeDispatch r) := by
  rw [feed_eq]
  rcases dispatch_cases (beforeDispatch r) with ⟨-, -, -, h⟩ | ⟨-, h⟩ | ⟨-, h⟩ | ⟨-, -, h⟩
  · exact .inl h
  · exact .inr (.inl h)
  · exact .inr (.inr (.inl h))
  · exact .inr (.inr (.inr h))

theorem feed_ps_cases (r : Rgd) :
    (feed r).ps = r.ps ∨ (feed r).ps = (psExtract (beforeDispatch r)).ps := by
  rcases feed_cases r with h | h | h | h <;> simp [h]

theorem feed_rt_cases (r : Rgd) :
    (feed r).rt = r.rt ∨ (feed r).rt = (rtExtract (beforeDispatch r)).rt := by
  rcases feed_cases r with h | h | h | h <;> simp [h]

theorem feed_ct_cases (r : Rgd) :
    (feed r).ct = r.ct ∨ (feed r).ct = (ctExtract (beforeDispatch r)).ct := by
  rcases feed_cases r with h | h | h | h <;> simp [h]

/-- FEED leaves READY[5] (R35): every extractor sets its own bit. -/
theorem feed_ready_five (r : Rgd) : (feed r).ready.getLsbD 5 = r.ready.getLsbD 5 := by
  rw [← beforeDispatch_ready_other r 5 (by decide) (by decide)]
  rcases feed_cases r with h | h | h | h <;> rw [h]
  · exact psExtract_ready_other _ 5 (by decide)
  · exact rtExtract_ready_other _ 5 (by decide)
  · exact ctExtract_ready_other _ 5 (by decide)

/-! The PI group and PTY (R88 to R96). -/

/-- PI_EXTRACT leaves the PI group, or puts an accepted code into the visible value and the shadow alike (R90). -/
theorem piExtract_pi_cases (r : Rgd) :
    (piExtract r).pi = r.pi ∨ ∃ v, (piExtract r).pi = { code := v, shadow := v, avail := true } := by
  unfold piExtract piUpdate
  split
  · split
    · exact .inr ⟨_, rfl⟩
    · exact .inl rfl
  · exact .inl rfl

theorem feed_pi_cases (r : Rgd) :
    (feed r).pi = r.pi ∨ ∃ v, (feed r).pi = { code := v, shadow := v, avail := true } := by
  rw [feed_pi]
  exact piExtract_pi_cases (classify r)

/-- The PTY stage leaves PTY or writes a code that is not 0 (R96). -/
theorem ptyStage_pty_ne_zero (r : Rgd) (h : r.pty ≠ 0#5) : (ptyStage r).pty ≠ 0#5 := by
  unfold ptyStage ptyExtract
  split
  · split
    next hnew => exact hnew.1
    next => exact h
  · exact h

theorem feed_pty_ne_zero (r : Rgd) (h : r.pty ≠ 0#5) : (feed r).pty ≠ 0#5 := by
  rw [feed_pty]
  exact ptyStage_pty_ne_zero _ (by simpa using h)

theorem feed_piShadowed (r : Rgd) (h : r.PiShadowed) : (feed r).PiShadowed := by
  rcases feed_pi_cases r with hpi | ⟨v, hpi⟩
  · simpa only [Rgd.PiShadowed, hpi] using h
  · rw [Rgd.PiShadowed, hpi]
    exact ⟨rfl, nofun⟩

/-! The PS group (R98 to R100). -/

@[simp] theorem psWrite_shadow (r : Rgd) : (psWrite r).ps.shadow = r.ps.shadow := by
  unfold psWrite; split <;> rfl

@[simp] theorem psWrite_avail (r : Rgd) : (psWrite r).ps.avail = r.ps.avail := by
  unfold psWrite; split <;> rfl

@[simp] theorem psDiff_buf (r : Rgd) : (psDiff r).ps.buf = r.ps.buf := by
  unfold psDiff; split <;> rfl

/-- After `ps_diff` the shadow holds the characters, whether they had changed or not (R100). -/
@[simp] theorem psDiff_shadow (r : Rgd) : (psDiff r).ps.shadow = r.ps.chars := by
  unfold psDiff
  split
  next => rfl
  next h => exact (not_not.mp h).symm

/-- `ps_diff` sets PS_AVAIL where a character differs from its shadow, and never clears it (R100). -/
theorem psDiff_avail_eq_false (r : Rgd) :
    (psDiff r).ps.avail = false ↔ r.ps.avail = false ∧ r.ps.chars = r.ps.shadow := by
  unfold psDiff
  split
  next h => simp [h]
  next h => simp [not_not.mp h]

/-- The characters go to PS_BUF[0..7]; the terminator stays (R37, R98). -/
theorem psExtract_terminator (r : Rgd) : byteAt (psExtract r).ps.buf 8 = byteAt r.ps.buf 8 := by
  have hseg := (psSegment r.inp).isLt
  rw [psExtract, psDiff_buf, psWrite]
  split
  · rw [byteAt_writeChars _ _ _ _ (by omega), if_neg (by omega), if_neg (by omega)]
  · rfl

/-- PS_EXTRACT ends with the change test, so it leaves the shadow equal to the characters (R41). -/
theorem psExtract_psShadowed (r : Rgd) : (psExtract r).PsShadowed := by
  intro i hi
  rw [psExtract, psDiff_shadow, psDiff_buf, byteAt_chars _ i hi]

/-- PS_AVAIL after PS_EXTRACT, where the shadow followed the characters before: it stays 0 exactly where it was 0 and
no character has changed (R100). -/
theorem psExtract_avail_eq_false {r : Rgd} (h : r.PsShadowed) :
    (psExtract r).ps.avail = false ↔
      r.ps.avail = false ∧ ∀ i, i < 8 → byteAt (psExtract r).ps.buf i = byteAt r.ps.buf i := by
  rw [psExtract, psDiff_avail_eq_false, psWrite_avail, chars_eq_shadow_iff, psWrite_shadow, psDiff_buf]
  exact and_congr_right fun _ => forall₂_congr fun i hi => by rw [h i hi]

/-- PS_EXTRACT never takes the name's availability back (R28). -/
theorem psExtract_avail {r : Rgd} (h : r.ps.avail = true) : (psExtract r).ps.avail = true := by
  rw [psExtract, ← Bool.not_eq_false, psDiff_avail_eq_false, psWrite_avail, h]
  simp

theorem feed_psTerminator (r : Rgd) : byteAt (feed r).ps.buf 8 = byteAt r.ps.buf 8 := by
  rcases feed_ps_cases r with hps | hps
  · rw [hps]
  · rw [hps, psExtract_terminator, beforeDispatch_ps]

theorem feed_psShadowed (r : Rgd) (h : r.PsShadowed) : (feed r).PsShadowed := by
  rcases feed_ps_cases r with hps | hps
  · simpa only [Rgd.PsShadowed, hps] using h
  · simpa only [Rgd.PsShadowed, hps] using psExtract_psShadowed (beforeDispatch r)

/-- PS_AVAIL after FEED, as after PS_EXTRACT: a group of another type changes neither it nor a character. -/
theorem feed_psAvail_eq_false {r : Rgd} (h : r.PsShadowed) :
    (feed r).ps.avail = false ↔
      r.ps.avail = false ∧ ∀ i, i < 8 → byteAt (feed r).ps.buf i = byteAt r.ps.buf i := by
  rcases feed_ps_cases r with hps | hps
  · simp [hps]
  · rw [hps, psExtract_avail_eq_false (by simpa only [Rgd.PsShadowed, beforeDispatch_ps] using h), beforeDispatch_ps]

theorem feed_psAvail {r : Rgd} (h : r.ps.avail = true) : (feed r).ps.avail = true := by
  rcases feed_ps_cases r with hps | hps
  · rwa [hps]
  · rw [hps, psExtract_avail (by rwa [beforeDispatch_ps])]

/-! The RT group (R102 to R110). -/

/-- A property of the machine that a selection and the write of an accepted half keep is kept by RT_EXTRACT (R102):
each half goes to an even index of at most 62 (R103, R104, R105). -/
theorem rtExtract_keeps {P : Rgd → Prop} (hselect : ∀ b r, P r → P (rtSelect b r))
    (hwrite : ∀ b i w r, i % 2 = 0 → i ≤ 62 → P r → P (rtWrite b i w r)) (r : Rgd) (h : P r) : P (rtExtract r) := by
  have hseg := (rtSegment r.inp).isLt
  have hhalf : ∀ (accepted : Bool) b i w q, i % 2 = 0 → i ≤ 62 → P q → P (if accepted then rtWrite b i w q else q) := by
    intro accepted b i w q heven hi hq
    cases accepted with
    | false => exact hq
    | true => exact hwrite b i w q heven hi hq
  unfold rtExtract rtHalfDA rtHalfCA rtHalfDB
  split
  · exact hhalf _ _ _ _ _ (by omega) (by omega) (hhalf _ _ _ _ _ (by omega) (by omega) (hselect _ _ h))
  · exact hhalf _ _ _ _ _ (by omega) (by omega) (hselect _ _ h)

/-- The same of a FEED, for a property that reads the RT group alone. -/
theorem feed_keeps_rt {P : Rgd → Prop} (hgroup : ∀ r r' : Rgd, r'.rt = r.rt → P r → P r')
    (hselect : ∀ b r, P r → P (rtSelect b r))
    (hwrite : ∀ b i w r, i % 2 = 0 → i ≤ 62 → P r → P (rtWrite b i w r)) (r : Rgd) (h : P r) : P (feed r) := by
  rcases feed_rt_cases r with hrt | hrt
  · exact hgroup r _ hrt h
  · exact hgroup _ _ hrt (rtExtract_keeps hselect hwrite _ (hgroup r _ (beforeDispatch_rt r) h))

/-- A half leaves its buffer's mark at least where it was (R108), and does not touch the other's. -/
theorem hwm_le_rtWrite (b c : RtSel) (i : Nat) (w : Half) (r : Rgd) (hi : i ≤ 62) :
    (r.rt.hwm c).toInt ≤ ((rtWrite b i w r).rt.hwm c).toInt := by
  rcases RtSel.eq_or_other b c with rfl | rfl
  · rw [rtWrite_rt, RtGroup.setHalf_hwm_self, markRaise_toInt _ _ (by omega)]
    exact le_max_left _ _
  · rw [rtWrite_rt, RtGroup.setHalf_hwm_other]

theorem hwm_le_feed (b : RtSel) (r : Rgd) : (r.rt.hwm b).toInt ≤ ((feed r).rt.hwm b).toInt := by
  refine feed_keeps_rt (P := fun q => (r.rt.hwm b).toInt ≤ (q.rt.hwm b).toInt) ?_ ?_ ?_ r le_rfl
  · intro q q' hrt h
    rwa [hrt]
  · intro c q h
    rwa [rtSelect_rt, RtGroup.sel_hwm]
  · intro c i w q _ hi h
    exact h.trans (hwm_le_rtWrite c b i w q hi)

/-- The two characters of a half lie before its end offset, which the raised mark reaches, and an even end offset keeps
the mark even (R107, R108). -/
theorem marksBoundText_rtWrite (b : RtSel) (i : Nat) (w : Half) (r : Rgd) (heven : i % 2 = 0) (hi : i ≤ 62)
    (h : r.MarksBoundText) : (rtWrite b i w r).MarksBoundText := by
  intro c
  rcases RtSel.eq_or_other b c with rfl | rfl
  · obtain ⟨hvalid, hblank⟩ := h c
    simp only [rtWrite_rt, RtGroup.setHalf_hwm_self, RtGroup.setHalf_buf_self, MarkValid, BlankFromMark,
      markRaise_toInt _ (i + 2) (by omega)]
    refine ⟨by unfold MarkValid at hvalid; omega, fun j hj hmark => ?_⟩
    rw [byteAt_writeChars _ _ _ _ (by omega), if_neg (by omega), if_neg (by omega)]
    exact hblank j hj (by omega)
  · simpa only [rtWrite_rt, RtGroup.setHalf_hwm_other, RtGroup.setHalf_buf_other] using h b.other

theorem marksBoundText_of_rt_eq (r r' : Rgd) (hrt : r'.rt = r.rt) (h : r.MarksBoundText) : r'.MarksBoundText := by
  simpa only [Rgd.MarksBoundText, hrt] using h

theorem feed_marksBoundText (r : Rgd) (h : r.MarksBoundText) : (feed r).MarksBoundText := by
  refine feed_keeps_rt marksBoundText_of_rt_eq ?_ marksBoundText_rtWrite r h
  intro b r h c
  simpa only [rtSelect_rt, RtGroup.sel_hwm, RtGroup.sel_buf] using h c

theorem reset_marksBoundText : Rgd.reset.MarksBoundText := by
  intro b
  have hrt : Rgd.reset.rt = RtGroup.initial := rfl
  rw [hrt, RtGroup.initial_hwm, RtGroup.initial_buf]
  exact ⟨.inl (by decide), fun i hi _ => by rw [byteAt_blankBuf, if_pos hi]⟩

/-- R37 for the RT buffers, by selector. -/
theorem rtWrite_terminator (b c : RtSel) (i : Nat) (w : Half) (r : Rgd) (hi : i ≤ 62) :
    byteAt ((rtWrite b i w r).rt.buf c) 64 = byteAt (r.rt.buf c) 64 := by
  rcases RtSel.eq_or_other b c with rfl | rfl
  · rw [rtWrite_rt, RtGroup.setHalf_buf_self, byteAt_writeChars _ _ _ _ (by omega), if_neg (by omega),
      if_neg (by omega)]
  · rw [rtWrite_rt, RtGroup.setHalf_buf_other]

theorem feed_rtTerminator (b : RtSel) (r : Rgd) : byteAt ((feed r).rt.buf b) 64 = byteAt (r.rt.buf b) 64 := by
  refine feed_keeps_rt (P := fun q => byteAt (q.rt.buf b) 64 = byteAt (r.rt.buf b) 64) ?_ ?_ ?_ r rfl
  · intro q q' hrt h
    rwa [hrt]
  · intro c q h
    rwa [rtSelect_rt, RtGroup.sel_buf]
  · intro c i w q _ hi h
    rwa [rtWrite_terminator c b i w q hi]

/-! The clock group (R111 to R119). -/

/-- The offset unit answers an hour of the day (R118). -/
theorem ofsNormalize_range (a o : Int) : 0 ≤ ofsNormalize a o ∧ ofsNormalize a o ≤ 23 := by
  have hlow : 0 ≤ addDays (a + o).natAbs (a + o) := addDays_nonneg _ _ (by omega)
  exact ⟨subDays_nonneg _ _ hlow, subDays_le _ _ (by omega)⟩

theorem ofsNormalize_toInt (a o : Int) : (BitVec.ofInt 8 (ofsNormalize a o)).toInt = ofsNormalize a o := by
  have hrange := ofsNormalize_range a o
  rw [BitVec.toInt_ofInt, Int.bmod_def]
  omega

theorem minuteField_toInt (g : Inputs) : ((minuteField g).setWidth 8).toInt = ((minuteField g).toNat : Int) := by
  have hlt := (minuteField g).isLt
  rw [BitVec.toInt_setWidth, Int.bmod_def]
  omega

/-- The clock shows a time of day (R39). -/
structure CtGroup.InRange (g : CtGroup) : Prop where
  hour : 0 ≤ g.hour.toInt ∧ g.hour.toInt ≤ 23
  min : 0 ≤ g.min.toInt ∧ g.min.toInt ≤ 63

/-- CT_EXTRACT leaves the clock, or sets both fields in range, the minute to at most 59 where CTRL.CT_MINCHK is set
(R112, R114). -/
theorem ctExtract_ct_cases (r : Rgd) :
    (ctExtract r).ct = r.ct ∨
    ((ctExtract r).ct.InRange ∧ (r.ctrl.getLsbD 18 = true → (ctExtract r).ct.min.toInt ≤ 59)) := by
  unfold ctExtract
  split
  · exact .inl rfl
  · split
    · exact .inl rfl
    · split
      · exact .inl rfl
      next hmin =>
        have hlt := (minuteField r.inp).isLt
        refine .inr ⟨⟨?_, ?_⟩, fun hcheck => ?_⟩ <;> rw [Rgd.raise_ct]
        · rw [ofsNormalize_toInt]
          exact ofsNormalize_range _ _
        · rw [minuteField_toInt]
          omega
        · rw [minuteField_toInt]
          have hle := not_and.mp hmin hcheck
          omega

theorem feed_ct_eq_or_inRange (r : Rgd) :
    (feed r).ct = r.ct ∨
    ((feed r).ct.InRange ∧ (r.ctrl.getLsbD 18 = true → (feed r).ct.min.toInt ≤ 59)) := by
  rcases feed_ct_cases r with hct | hct
  · exact .inl hct
  · simpa only [hct, beforeDispatch_ct, beforeDispatch_ctrl] using ctExtract_ct_cases (beforeDispatch r)

theorem feed_clockValid (r : Rgd) (h : r.ClockValid) : (feed r).ClockValid := by
  rcases feed_ct_eq_or_inRange r with hct | ⟨⟨hhour, hmin⟩, -⟩
  · simpa only [Rgd.ClockValid, hct] using h
  · unfold Rgd.ClockValid
    omega

/-! The input bits that a FEED ignores (R65, R66). -/

/-- The raw group with another IN_STATUS and IN_ERR. -/
def Inputs.reload (st : BitVec 8) (e : BitVec 16) (g : Inputs) : Inputs := { g with status := st, err := e }

/-- The RGD with another IN_STATUS and IN_ERR. -/
def Rgd.reload (st : BitVec 8) (e : BitVec 16) (r : Rgd) : Rgd := { r with inp := r.inp.reload st e }

@[simp] theorem Rgd.reload_inp (st : BitVec 8) (e : BitVec 16) (r : Rgd) :
    (r.reload st e).inp = r.inp.reload st e := rfl

/-- The classifier reads only the used bits of IN_ERR (R66, R81). -/
theorem errorLevel_of_sameUsedBits {g g' : Inputs} (h : g.SameUsedBits g') (b : Block) :
    errorLevel g' b = errorLevel g b := by
  obtain ⟨-, -, -, -, -, herr⟩ := h
  have hlow := congrArg BitVec.toNat herr
  simp only [extractLsb'_toNat'] at hlow
  apply BitVec.eq_of_toNat_eq
  rw [errorLevel_toNat, errorLevel_toNat]
  cases b <;> simp only [Inputs.level] <;> omega

/-- The classifier reads only bit 4 of IN_STATUS (R65, R82). -/
theorem protocolVersion_of_sameUsedBits {g g' : Inputs} (h : g.SameUsedBits g') :
    protocolVersion g' = protocolVersion g := by
  obtain ⟨-, -, -, -, hstatus, -⟩ := h
  rw [protocolVersion, hstatus, protocolVersion]

theorem Inputs.eq_reload {g g' : Inputs} (h : g.SameUsedBits g') : g' = g.reload g'.status g'.err := by
  obtain ⟨hA, hB, hC, hD, -, -⟩ := h
  rw [Inputs.reload, ← hA, ← hB, ← hC, ← hD]

/-- Machines that agree but for ignored input bits differ by a change of IN_STATUS and IN_ERR. -/
theorem Rgd.eq_reload {r r' : Rgd} (hused : r.inp.SameUsedBits r'.inp) (hctrl : r'.ctrl = r.ctrl)
    (hthr : r'.thr = r.thr) (hrecord : r.SameRecord r') : r' = r.reload r'.inp.status r'.inp.err := by
  obtain ⟨hpi, hpty, hps, hrt, hct, hready, hcls⟩ := hrecord
  rw [Rgd.reload, ← Inputs.eq_reload hused, ← hctrl, ← hthr, ← hpi, ← hpty, ← hps, ← hrt, ← hct, ← hready, ← hcls]

/-! Each part of a FEED (R121) commutes with the change of the ignored bits. -/

section
variable {st : BitVec 8} {e : BitVec 16} {r : Rgd}

theorem ptyStage_reload : ptyStage (r.reload st e) = (ptyStage r).reload st e := by
  simp only [ptyStage, ptyExtract, apply_ite (Rgd.reload st e)]
  rfl

theorem rtSelect_reload (b : RtSel) : rtSelect b (r.reload st e) = (rtSelect b r).reload st e := rfl

variable (h : r.inp.SameUsedBits (r.inp.reload st e))
include h

theorem classify_reload : classify (r.reload st e) = (classify r).reload st e := by
  have hclass : classWord (r.inp.reload st e) = classWord r.inp := by
    simp only [classWord, errorLevel_of_sameUsedBits h, protocolVersion_of_sameUsedBits h]
    rfl
  rw [classify, Rgd.reload_inp, hclass]
  rfl

theorem piExtract_reload : piExtract (r.reload st e) = (piExtract r).reload st e := by
  have hcandidate : piCandidate (r.inp.reload st e) = piCandidate r.inp := by
    simp only [piCandidate, errorLevel_of_sameUsedBits h, protocolVersion_of_sameUsedBits h]
    rfl
  simp only [piExtract, piUpdate, Rgd.reload_inp, hcandidate, apply_ite (Rgd.reload st e)]
  rfl

theorem psExtract_reload : psExtract (r.reload st e) = (psExtract r).reload st e := by
  have hwrite : psWrite (r.reload st e) = (psWrite r).reload st e := by
    simp only [psWrite, Rgd.reload_inp, errorLevel_of_sameUsedBits h, apply_ite (Rgd.reload st e)]
    rfl
  simp only [psExtract, hwrite, psDiff, apply_ite (Rgd.reload st e)]
  rfl

theorem ctExtract_reload : ctExtract (r.reload st e) = (ctExtract r).reload st e := by
  simp only [ctExtract, Rgd.reload_inp, errorLevel_of_sameUsedBits h, apply_ite (Rgd.reload st e)]
  rfl

/-- A half of RT_EXTRACT, gated on block `k`. -/
theorem rtHalf_reload (k : Block) (b : RtSel) (i : Nat) (w : Half) :
    (if accept (errorLevel (r.inp.reload st e) k) r.thrRt then rtWrite b i w (r.reload st e) else r.reload st e) =
      (if accept (errorLevel r.inp k) r.thrRt then rtWrite b i w r else r).reload st e := by
  rw [errorLevel_of_sameUsedBits h, apply_ite (Rgd.reload st e)]
  rfl

theorem rtHalfCA_reload (b : RtSel) (seg : Nat) :
    rtHalfCA b seg (r.reload st e) = (rtHalfCA b seg r).reload st e := rtHalf_reload h .C b (4 * seg) r.inp.blkC

theorem rtHalfDA_reload (b : RtSel) (seg : Nat) :
    rtHalfDA b seg (r.reload st e) = (rtHalfDA b seg r).reload st e := rtHalf_reload h .D b (4 * seg + 2) r.inp.blkD

theorem rtHalfDB_reload (b : RtSel) (seg : Nat) :
    rtHalfDB b seg (r.reload st e) = (rtHalfDB b seg r).reload st e := rtHalf_reload h .D b (2 * seg) r.inp.blkD

theorem rtExtract_reload : rtExtract (r.reload st e) = (rtExtract r).reload st e := by
  have hsel : rtSelector (r.inp.reload st e) = rtSelector r.inp := rfl
  have hseg : rtSegment (r.inp.reload st e) = rtSegment r.inp := rfl
  simp only [rtExtract, Rgd.reload_inp, protocolVersion_of_sameUsedBits h, hsel, hseg, rtSelect_reload]
  split
  · rw [rtHalfCA_reload (by rwa [rtSelect_inp]), rtHalfDA_reload (by rwa [rtHalfCA_inp, rtSelect_inp])]
  · exact rtHalfDB_reload (by rwa [rtSelect_inp]) _ _

theorem route_reload : route (r.reload st e) = (route r).reload st e := by
  have htype : groupType (r.inp.reload st e) = groupType r.inp := rfl
  simp only [route, Rgd.reload_inp, htype, protocolVersion_of_sameUsedBits h]
  split
  · exact psExtract_reload h
  · exact rtExtract_reload h
  · split
    · exact ctExtract_reload h
    · rfl
  · rfl

theorem dispatch_reload : dispatch (r.reload st e) = (dispatch r).reload st e := by
  simp only [dispatch, Rgd.reload_inp, errorLevel_of_sameUsedBits h, route_reload h, apply_ite (Rgd.reload st e)]
  rfl

theorem feed_reload : feed (r.reload st e) = (feed r).reload st e := by
  rw [feed, classify_reload h, piExtract_reload (by rwa [classify_inp]), ptyStage_reload,
    dispatch_reload (by rwa [ptyStage_inp, piExtract_inp, classify_inp]), feed]

end

/-! Invariants that a step keeps: READY[5] (R35), CLASS (R36), the blank name (R42) and each terminator (R37). -/

/-- A FEED's classification sets VALID and leaves the reserved bits 0 (R121). -/
theorem classWord_bits (g : Inputs) :
    (classWord g).getLsbD 1 = true ∧ (classWord g).getLsbD 2 = false ∧ (classWord g).getLsbD 3 = false := by
  simp only [classWord, BitVec.getLsbD_append]
  simp

theorem step_keeps_readyReservedClear {s t : State} (hs : s.rgd.ReadyReservedClear) (hstep : step s = .next t) :
    t.rgd.ReadyReservedClear := by
  rcases step_feed_or_keptOrCleared hstep with ht | ht
  · rw [Rgd.ReadyReservedClear, ht, feed_ready_five]
    exact hs
  · exact Bool.eq_false_of_not_eq_true fun h => Bool.false_ne_true (hs.symm.trans (ht.ready 5 h))

theorem step_keeps_classValid {s t : State} (hs : s.rgd.ClassValid) (hstep : step s = .next t) : t.rgd.ClassValid := by
  rcases step_feed_or_keptOrCleared hstep with ht | ht
  · obtain ⟨hvalid, h2, h3⟩ := classWord_bits s.rgd.inp
    rw [Rgd.ClassValid, ht, feed_cls]
    exact ⟨h2, h3, fun h => absurd (hvalid.symm.trans h) (by decide)⟩
  · rcases ht.cls with hcls | hcls
    · rwa [Rgd.ClassValid, hcls]
    · rw [Rgd.ClassValid, hcls]
      decide

/-- R42 needs R41: a FEED that leaves PS_AVAIL 0 has left every character as it was. -/
theorem feed_psBlankUntilAvail (r : Rgd) (h : r.PsShadowed ∧ r.PsBlankUntilAvail) :
    (feed r).PsShadowed ∧ (feed r).PsBlankUntilAvail := by
  obtain ⟨hshadow, hblank⟩ := h
  refine ⟨feed_psShadowed r hshadow, fun havail i hi => ?_⟩
  obtain ⟨hwas, hkept⟩ := (feed_psAvail_eq_false hshadow).mp havail
  rw [hkept i hi, hblank hwas i hi]

theorem step_keeps_psBlankUntilAvail {s t : State} (hshadow : s.rgd.PsShadowed) (hblank : s.rgd.PsBlankUntilAvail)
    (hstep : step s = .next t) : t.rgd.PsBlankUntilAvail := by
  refine (step_keeps_group (P := fun r => r.PsShadowed ∧ r.PsBlankUntilAvail) (G := Rgd.ps) ?_ (·.ps) (by decide)
    feed_psBlankUntilAvail ⟨hshadow, hblank⟩ hstep).2
  intro r r' hps h
  simpa only [Rgd.PsShadowed, Rgd.PsBlankUntilAvail, hps] using h

theorem step_keeps_psTerminator {s t : State} (hs : byteAt s.rgd.ps.buf 8 = 0x00#8) (hstep : step s = .next t) :
    byteAt t.rgd.ps.buf 8 = 0x00#8 := by
  refine step_keeps_group (G := Rgd.ps) (P := fun r => byteAt r.ps.buf 8 = 0x00#8) ?_ (·.ps) (by decide)
    (fun r h => (feed_psTerminator r).trans h) hs hstep
  intro r r' hps h
  rwa [hps]

theorem step_keeps_rtTerminator (b : RtSel) {s t : State} (hs : byteAt (s.rgd.rt.buf b) 64 = 0x00#8)
    (hstep : step s = .next t) : byteAt (t.rgd.rt.buf b) 64 = 0x00#8 := by
  refine step_keeps_group (G := Rgd.rt) (P := fun r => byteAt (r.rt.buf b) 64 = 0x00#8) ?_ (·.rt)
    (by cases b <;> decide) (fun r h => (feed_rtTerminator b r).trans h) hs hstep
  intro r r' hrt h
  rwa [hrt]

/-! What only the reset commands take back. -/

/-- No availability flag is cleared, and neither PTY nor a clock field is back at its initial value (R24, R28, R97,
R120). -/
structure Rgd.TakesNothingBack (r r' : Rgd) : Prop where
  piAvail : r.pi.avail = true → r'.pi.avail = true
  psAvail : r.ps.avail = true → r'.ps.avail = true
  pty : r.pty ≠ 0#5 → r'.pty ≠ 0#5
  hour : r.ct.hour.toInt ≠ -1 → r'.ct.hour.toInt ≠ -1
  min : r.ct.min.toInt ≠ -1 → r'.ct.min.toInt ≠ -1

theorem Rgd.RecordKept.takesNothingBack {r r' : Rgd} (h : r.RecordKept r') : r.TakesNothingBack r' where
  piAvail hs := by rwa [h.pi]
  psAvail hs := by rwa [h.ps]
  pty hs := by rwa [h.pty]
  hour hs := by rwa [h.ct]
  min hs := by rwa [h.ct]

theorem feed_takesNothingBack (r : Rgd) : r.TakesNothingBack (feed r) where
  piAvail hs := by
    rcases feed_pi_cases r with hpi | ⟨v, hpi⟩
    · rwa [hpi]
    · rw [hpi]
  psAvail := feed_psAvail
  pty := feed_pty_ne_zero r
  hour hs := by
    rcases feed_ct_eq_or_inRange r with hct | ⟨⟨⟨hlow, -⟩, -⟩, -⟩
    · rwa [hct]
    · omega
  min hs := by
    rcases feed_ct_eq_or_inRange r with hct | ⟨⟨-, ⟨hlow, -⟩⟩, -⟩
    · rwa [hct]
    · omega

/-! The obligations. -/

/-- Settles O52: at reset the marks are -1 and the text blank, and each accepted half raises its mark past what it
writes. -/
theorem marksBoundTheText : Obligations.MarksBoundTheText := by
  unfold Obligations.MarksBoundTheText
  intro s t hs hstep
  exact step_keeps_group (G := Rgd.rt) marksBoundText_of_rt_eq (·.rt) reset_marksBoundText feed_marksBoundText hs hstep

/-- Settles O49: no character write reaches a terminator. -/
theorem terminatorsStay : Obligations.TerminatorsStay := by
  unfold Obligations.TerminatorsStay
  rintro s t ⟨hps, hrt0, hrt1⟩ hstep
  exact ⟨step_keeps_psTerminator hps hstep, step_keeps_rtTerminator .A hrt0 hstep,
    step_keeps_rtTerminator .B hrt1 hstep⟩

/-- Settles O50: FEED writes a shadow and its visible value together, and the change test runs after every character
write. -/
theorem shadowsFollowTheVisibleValues : Obligations.ShadowsFollowTheVisibleValues := by
  unfold Obligations.ShadowsFollowTheVisibleValues
  refine ⟨fun s t hs hstep => ?_, fun s t hs hstep => ?_⟩
  · refine step_keeps_group (G := Rgd.pi) ?_ (·.pi) (by decide) feed_piShadowed hs hstep
    intro r r' hpi h
    rwa [Rgd.PiShadowed, hpi]
  · refine step_keeps_group (G := Rgd.ps) ?_ (·.ps) (by decide) feed_psShadowed hs hstep
    intro r r' hps h
    rwa [Rgd.PsShadowed, hps]

/-- Settles O51: the offset unit answers 0..23, and a minute above 59 is dropped where the check is on. -/
theorem clockFieldsStayInRange : Obligations.ClockFieldsStayInRange := by
  unfold Obligations.ClockFieldsStayInRange
  refine ⟨fun s t hs hstep => ?_, fun s t hcheck hs hstep => ?_⟩
  · refine step_keeps_group (G := Rgd.ct) ?_ (·.ct) (by decide) feed_clockValid hs hstep
    intro r r' hct h
    rwa [Rgd.ClockValid, hct]
  · rcases step_feed_or_keptOrCleared hstep with ht | ht
    · rcases feed_ct_eq_or_inRange s.rgd with hct | ⟨-, hmin⟩
      · rwa [ht, hct]
      · exact ht ▸ hmin hcheck
    · rcases ht.ct with hct | hct
      · rwa [hct]
      · rw [hct]
        decide

/-- Settles O53: while PS_AVAIL is 0 the shadow is all spaces, so the change test compares with spaces. -/
theorem nameAvailabilityRisesWithTheFirstCharacter : Obligations.NameAvailabilityRisesWithTheFirstCharacter := by
  unfold Obligations.NameAvailabilityRisesWithTheFirstCharacter
  intro s hs
  refine ⟨_, rfl, fun hwas => ?_, feed_psAvail⟩
  have hblank := hs.psBlank hwas
  rw [State.onRgd_rgd, ← Bool.not_eq_false, feed_psAvail_eq_false hs.psShadowed]
  simp only [hwas, true_and, not_forall, exists_prop]
  exact exists_congr fun i => and_congr_right fun hi => by rw [hblank i hi]

/-- Settles O54, invariant by invariant. -/
theorem everyStepKeepsTheInvariants : Obligations.EveryStepKeepsTheInvariants := by
  unfold Obligations.EveryStepKeepsTheInvariants
  intro s t hs hstep
  obtain ⟨hkeepsPi, hkeepsPs⟩ := shadowsFollowTheVisibleValues
  exact {
    terminated := terminatorsStay s t hs.terminated hstep
    piShadowed := hkeepsPi s t hs.piShadowed hstep
    psShadowed := hkeepsPs s t hs.psShadowed hstep
    psBlank := step_keeps_psBlankUntilAvail hs.psShadowed hs.psBlank hstep
    clock := clockFieldsStayInRange.1 s t hs.clock hstep
    marks := marksBoundTheText s t hs.marks hstep
    readyReserved := step_keeps_readyReservedClear hs.readyReserved hstep
    classValid := step_keeps_classValid hs.classValid hstep }

/-- Settles O45: the commands write none of these registers, and each register write only its own. -/
theorem onlyTheirOwnWritesChangeConfigurationAndInputs :
    Obligations.OnlyTheirOwnWritesChangeConfigurationAndInputs := by
  unfold Obligations.OnlyTheirOwnWritesChangeConfigurationAndInputs
  intro i s t h
  rcases exec_cases h with rfl | ⟨v, rfl⟩ | ⟨f, hf, rfl⟩
  · simp
  · simp
  · cases hf with
    | init | wrInit | sreset | wrSreset | feed | wrFeed => simp
    | status | blkA | blkB | blkC | blkD | err | ctrl | thr | ready => simp

/-- Settles O47: FEED only raises marks, and SRESET leaves both or clears both. -/
theorem marksNeverDecrease : Obligations.MarksNeverDecrease := by
  unfold Obligations.MarksNeverDecrease
  intro i s t b h
  have hminus : (RtGroup.initial.hwm b).toInt = -1 := by rw [RtGroup.initial_hwm]; decide
  rcases exec_record_cases h with ⟨hi, ht⟩ | ⟨hi, ht⟩ | ht | ht
  · rw [ht, init_rt]
    exact .inr ⟨hminus, by tauto⟩
  · rcases sreset_rt s.rgd with hrt | hrt
    · exact .inl (by rw [ht, hrt])
    · rw [ht, hrt]
      exact .inr ⟨hminus, by tauto⟩
  · exact .inl (ht ▸ hwm_le_feed b s.rgd)
  · exact .inl (by rw [ht.rt])

/-- Settles O48: no read value names a shadow, so two such machines answer the same word; a command or a write answers
nothing. -/
theorem noReadShowsTheShadows : Obligations.NoReadShowsTheShadows := by
  unfold Obligations.NoReadShowsTheShadows
  rintro i ⟨r, host⟩ ⟨r', host'⟩ rfl hshadows
  simp only [Rgd.SameButShadows] at hshadows
  generalize r'.pi.shadow = a, r'.ps.shadow = b at hshadows
  subst hshadows
  cases i with
  | wrCmd v =>
    obtain ⟨f, hf⟩ := runCommand_eq_onRgd (decodeCommand v)
    exact ⟨_, _, hf _, hf _, rfl⟩
  | rdCmd | rdInStatus | rdInBlkA | rdInBlkB | rdInBlkC | rdInBlkD | rdInErr | rdCtrl | rdThr | rdReady | rdPiStat
  | rdPtyStat | rdPsStat | rdRtStat | rdCtStat | rdClass | rdPsWin | rdRtaWin | rdRtbWin | rdReserved =>
    exact ⟨_, _, rfl, rfl, rfl⟩
  | nop | init | sreset | feed | reserved => exact ⟨_, _, rfl, rfl, rfl⟩
  | wrInStatus | wrInBlkA | wrInBlkB | wrInBlkC | wrInBlkD | wrInErr | wrCtrl | wrThr | wrReady | wrPiStat | wrPtyStat
  | wrPsStat | wrRtStat | wrCtStat | wrClass | wrPsWin | wrRtaWin | wrRtbWin | wrReserved =>
    exact ⟨_, _, rfl, rfl, rfl⟩

/-- Settles O46: FEED, a register write and a read take nothing back, and SRESET takes PS_AVAIL and PTY back only under
CTRL.SR_PS. -/
theorem onlyResetCommandsTakeAvailabilityBack : Obligations.OnlyResetCommandsTakeAvailabilityBack := by
  unfold Obligations.OnlyResetCommandsTakeAvailabilityBack
  intro i s t h isInit isSreset
  rcases exec_record_cases h with ⟨hi, -⟩ | ⟨hi, ht⟩ | hrest
  · exact ⟨fun _ _ => .inl hi, fun _ _ => .inl hi, fun _ _ => .inl hi, fun _ _ => .inl hi, fun _ _ => .inl hi⟩
  · rcases sreset_ps_pty s.rgd with ⟨hset, -, -⟩ | ⟨-, hps, hpty⟩
    · exact ⟨fun _ _ => .inr hi, fun _ _ => .inr ⟨hi, hset⟩, fun _ _ => .inr ⟨hi, hset⟩, fun _ _ => .inr hi,
        fun _ _ => .inr hi⟩
    · rw [← ht] at hps hpty
      rw [hps, hpty]
      exact ⟨fun _ _ => .inr hi, fun hs hn => absurd (hn.symm.trans hs) Bool.false_ne_true,
        fun hs hn => absurd hn hs, fun _ _ => .inr hi, fun _ _ => .inr hi⟩
  · have hk : s.rgd.TakesNothingBack t.rgd := by
      rcases hrest with ht | ht
      · exact ht ▸ feed_takesNothingBack _
      · exact ht.takesNothingBack
    exact ⟨fun hs hn => absurd (hn.symm.trans (hk.piAvail hs)) Bool.false_ne_true,
      fun hs hn => absurd (hn.symm.trans (hk.psAvail hs)) Bool.false_ne_true, fun hs hn => absurd hn (hk.pty hs),
      fun hs hn => absurd hn (hk.hour hs), fun hs hn => absurd hn (hk.min hs)⟩

/-- Settles O32: FEED commutes with a change of the ignored bits, and so leaves the same record. -/
theorem ignoredInputBitsHaveNoEffect : Obligations.IgnoredInputBitsHaveNoEffect := by
  unfold Obligations.IgnoredInputBitsHaveNoEffect
  rintro s s' hused hctrl hthr hrecord
  have hrgd := Rgd.eq_reload hused hctrl hthr hrecord
  have hfeed : feed s'.rgd = (feed s.rgd).reload s'.rgd.inp.status s'.rgd.inp.err := by
    rw [Inputs.eq_reload hused] at hused
    rw [← feed_reload hused, ← hrgd]
  refine ⟨_, _, rfl, rfl, ?_⟩
  rw [State.onRgd_rgd, State.onRgd_rgd, hfeed]
  exact ⟨rfl, rfl, rfl, rfl, rfl, rfl, rfl⟩

end Sys2Proof.Machine
end

section
/-! PROOFS of the family 20_memory.md. First where decoding and the fetch are defined and what a refused access leaves
(R45 to R47); then the words that reads return, as numbers (R48 to R50, R58), and the stores of the register writes
(R54 to R56); and the obligations. -/

namespace Sys2Proof.Machine

/-! Where decoding and the fetch are defined (R45 to R47). -/

/-- The register map names no offset beyond the window: the converse of `regAt_of_word_offset`. -/
theorem lt_of_regAt_eq_some {off : Nat} {r : Reg} (h : regAt off = some r) : off < 0x200 := by
  have hrows : ∀ row ∈ registerMap, row.last < 0x200 := by decide
  obtain ⟨row, hfind, -⟩ := Option.map_eq_some_iff.mp h
  have hlast := hrows row (List.mem_of_find?_eq_some hfind)
  have hin := List.find?_some hfind
  rw [Bool.and_eq_true, decide_eq_true_eq, decide_eq_true_eq] at hin
  omega

/-- An access decodes exactly where the interface contract gives it a meaning (R47). -/
theorem exists_decode_access_eq_ok {d : Dir} {bytes off : Nat} :
    (∃ i, decode (.access d bytes off) = .ok i) ↔ bytes = 4 ∧ off % 4 = 0 ∧ off < 0x200 := by
  simp only [decode_access_eq_ok]
  constructor
  · rintro ⟨_, hbytes, halign, r, hr, -⟩
    exact ⟨hbytes, halign, lt_of_regAt_eq_some hr⟩
  · rintro ⟨hbytes, halign, hlt⟩
    obtain ⟨r, hr⟩ := regAt_of_word_offset halign hlt
    exact ⟨_, hbytes, halign, r, hr, rfl⟩

/-- The addresses that do not reach the window: the complement of `windowOffset_eq_some`. -/
theorem windowOffset_eq_none {h : HostPort} {a : Nat} :
    h.windowOffset a = none ↔ a < 0x200 * h.pBaseBlock ∨ 0x200 * h.pBaseBlock + 0x200 ≤ a := by
  simp only [Option.eq_none_iff_forall_ne_some, ne_eq, windowOffset_eq_some]
  constructor
  · intro hnone
    have hout := hnone (a - 0x200 * h.pBaseBlock)
    omega
  · omega

theorem fetch_of_windowOffset_eq_none {h : HostPort} {a : HostAccess} (hoff : h.windowOffset a.addr = none) :
    fetch h a = .error (.outsideWindow a.addr) := by
  simp only [fetch, hoff]

theorem fetch_of_decode_eq_error {h : HostPort} {a : HostAccess} {off : Nat} {why : Reject}
    (hoff : h.windowOffset a.addr = some off) (hdec : decode (.access a.dir a.bytes off) = .error why) :
    fetch h a = .error (.contract why) := by
  simp only [fetch, hoff, hdec]

/-- A step ends in the refusal that the fetch names. -/
theorem step_of_fetch_eq_error {s : State} {a : HostAccess} {rest : List HostEvent} {why : Refusal}
    (hp : s.host.pending = .access a :: rest) (hf : fetch s.host a = .error why) : step s = .refused why := by
  simp only [step, hp, hf]

/-- A fetched access completes, so its step is no refusal (R140). -/
theorem step_ne_refused_of_fetch {s : State} {a : HostAccess} {rest : List HostEvent} {i : Instr} {why : Refusal}
    (hp : s.host.pending = .access a :: rest) (hf : fetch s.host a = .ok i) : step s ≠ .refused why := by
  rw [step_of_fetch hp hf]
  rcases exec_of_fetch hf with ⟨-, v, hv⟩ | ⟨-, -, f, hw⟩
  · simp [hv]
  · simp [hw]

/-- The row of a command means what the command runs (R73). -/
theorem exec_toInstr (c : Command) (s : State) : exec c.toInstr s = runCommand c s := by
  cases c <;> rfl

/-! The words that reads return, as numbers (R48 to R50, R58). -/

/-- Fields side by side, as a number. -/
theorem toNat_append_eq_mul_add {m n : Nat} (x : BitVec m) (y : BitVec n) :
    (x ++ y).toNat = x.toNat * 2 ^ n + y.toNat := by
  rw [BitVec.toNat_append, ← Nat.shiftLeft_add_eq_or_of_lt y.isLt, Nat.shiftLeft_eq]

/-- A register of up to 32 bits reads as its own number. -/
theorem toNat_zeroExtend {n : Nat} (x : BitVec n) (hn : n ≤ 32 := by decide) : (x.setWidth 32).toNat = x.toNat :=
  BitVec.toNat_setWidth_of_le hn

/-- A flag as a number. -/
theorem toNat_ofBool_eq_ite (b : Bool) : (BitVec.ofBool b).toNat = if b then 1 else 0 := by
  cases b <;> rfl

theorem piStatWord_toNat (r : Rgd) :
    (piStatWord r).toNat = r.pi.code.toNat + 0x10000 * (if r.pi.avail then 1 else 0) := by
  simp only [piStatWord, toNat_append_eq_mul_add, toNat_ofBool_eq_ite, BitVec.toNat_zero]
  omega

theorem psStatWord_toNat (r : Rgd) : (psStatWord r).toNat = if r.ps.avail then 1 else 0 := by
  rw [psStatWord, toNat_zeroExtend, toNat_ofBool_eq_ite]

theorem RtSel.bit_toNat (s : RtSel) : s.bit.toNat = if s = .B then 1 else 0 := by
  cases s <;> rfl

theorem rtStatWord_toNat (r : Rgd) :
    (rtStatWord r).toNat =
      (if r.rt.sel = .B then 1 else 0) + 0x100 * (r.rt.hwm .A).toNat + 0x10000 * (r.rt.hwm .B).toNat := by
  simp only [rtStatWord, toNat_append_eq_mul_add, RtSel.bit_toNat, RtGroup.hwm, BitVec.toNat_zero]
  omega

theorem ctStatWord_toNat (r : Rgd) : (ctStatWord r).toNat = r.ct.hour.toNat + 0x100 * r.ct.min.toNat := by
  simp only [ctStatWord, toNat_append_eq_mul_add, BitVec.toNat_zero]
  omega

/-- A buffer that ends at index `last` reads 0x00 from there on (R49). -/
theorem ite_byteAt_eq_byteAt {n last : Nat} (buf : Vector Byte n) (hlast : n = last + 1) (j : Nat) :
    (if j ≤ last then byteAt buf j else 0x00#8) = byteAt buf j := by
  split
  next => rfl
  next h => rw [byteAt_of_le buf j (by omega)]

/-- A window word is its four bytes, the lowest offset in the lowest bits (R50); `f` gives the bytes of the buffer. -/
theorem windowWord_toNat {n : Nat} (buf : Vector Byte n) (f : Nat → Byte) (hf : ∀ j, f j = byteAt buf j) (j : Nat) :
    (windowWord buf j).toNat =
      (f j).toNat + 0x100 * (f (j + 1)).toNat + 0x10000 * (f (j + 2)).toNat + 0x1000000 * (f (j + 3)).toNat := by
  simp only [windowWord, wordOfBytes, toNat_append_eq_mul_add, hf]
  omega

/-! The stores of the register writes (R54 to R56). -/

/-- The low bits of a written value, as a number. -/
theorem extractLsb'_zero_eq_ofNat (v : Word) (n : Nat) : v.extractLsb' 0 n = BitVec.ofNat n v.toNat := by
  apply BitVec.eq_of_toNat_eq
  rw [extractLsb'_toNat', BitVec.toNat_ofNat, Nat.pow_zero, Nat.div_one]

/-- What a register of `n` bits reads after a write of `v` to it (R53). -/
theorem toNat_zeroExtend_extractLsb' (v : Word) (n : Nat) (hn : n ≤ 32 := by decide) :
    ((v.extractLsb' 0 n).setWidth 32).toNat = v.toNat % 2 ^ n := by
  rw [toNat_zeroExtend _ hn, extractLsb'_zero_eq_ofNat, BitVec.toNat_ofNat]

/-- Bits of READY once cleared stay cleared (R56). -/
theorem Rgd.clearReady_clearReady (v : Word) (r : Rgd) : (r.clearReady v).clearReady v = r.clearReady v := by
  simp only [Rgd.clearReady, BitVec.and_assoc, BitVec.and_self]

/-- An instruction that runs an idempotent function of the RGD does no more when it is repeated. -/
theorem exec_repeat {i : Instr} (f : Rgd → Rgd) {s t : State} (hexec : ∀ u : State, exec i u = .next (u.onRgd f))
    (hf : ∀ r, f (f r) = f r) (h : exec i s = .next t) : exec i t = .next t := by
  cases (hexec s).symm.trans h
  have hagain : (s.onRgd f).onRgd f = s.onRgd f := congrArg (State.mk · s.host) (hf s.rgd)
  rw [hexec, hagain]

/-! The obligations. -/

/-- Settles O4: a command word always has its row, and an access has one exactly on the word offsets of the map. -/
theorem decodingIsDefinedExactlyOnTheContract : Obligations.DecodingIsDefinedExactlyOnTheContract := by
  unfold Obligations.DecodingIsDefinedExactlyOnTheContract
  exact ⟨fun w => ⟨(decodeCommand w).toInstr, rfl⟩, fun _ _ _ => exists_decode_access_eq_ok⟩

/-- Settles O5: what decodes is run and completes, and what does not decode is refused as the decoder rejects it. -/
theorem undefinedAccessesAreRefused : Obligations.UndefinedAccessesAreRefused := by
  unfold Obligations.UndefinedAccessesAreRefused
  intro s a rest hp hlow hhigh
  have hoff := windowOffset_eq_some.mpr ⟨hlow, hhigh, rfl⟩
  have hdef := exists_decode_access_eq_ok (d := a.dir) (bytes := a.bytes) (off := a.addr - 0x200 * s.host.pBaseBlock)
  cases hdec : decode (.access a.dir a.bytes (a.addr - 0x200 * s.host.pBaseBlock)) with
  | ok i =>
    obtain ⟨hbytes, halign, -⟩ := hdef.mp ⟨i, hdec⟩
    refine iff_of_false ?_ (not_not_intro ⟨hbytes, halign⟩)
    rintro ⟨why, hwhy⟩
    exact step_ne_refused_of_fetch hp (fetch_of_decode hoff hdec) hwhy
  | error why =>
    refine iff_of_true ⟨why, step_of_fetch_eq_error hp (fetch_of_decode_eq_error hoff hdec)⟩ ?_
    rintro ⟨hbytes, halign⟩
    obtain ⟨i, hi⟩ := hdef.mpr ⟨hbytes, halign, by omega⟩
    cases hdec.symm.trans hi

/-- Settles O20: a window word is four bytes of its buffer, which reads 0x00 past its terminator. -/
theorem windowReadsReturnTheirBytes : Obligations.WindowReadsReturnTheirBytes := by
  unfold Obligations.WindowReadsReturnTheirBytes
  intro s off reads word
  exact ⟨fun _ => ⟨_, windowWord_toNat _ _ (fun j => ite_byteAt_eq_byteAt _ rfl j) _, rfl⟩,
    fun _ => ⟨_, windowWord_toNat _ _ (fun j => ite_byteAt_eq_byteAt _ rfl j) _, rfl⟩,
    fun _ => ⟨_, windowWord_toNat _ _ (fun j => ite_byteAt_eq_byteAt _ rfl j) _, rfl⟩,
    fun _ => ⟨_, rfl, rfl⟩⟩

/-- Settles O6: the fetch finds no window offset. -/
theorem accessesOutsideTheWindowAreRefused : Obligations.AccessesOutsideTheWindowAreRefused := by
  unfold Obligations.AccessesOutsideTheWindowAreRefused
  intro s a rest hp hout
  exact step_of_fetch_eq_error hp (fetch_of_windowOffset_eq_none (windowOffset_eq_none.mpr hout))

/-- Settles O7: the fetch decodes the access at its window offset. -/
theorem stepRunsTheDecodedInstruction : Obligations.StepRunsTheDecodedInstruction := by
  unfold Obligations.StepRunsTheDecodedInstruction
  refine ⟨fun s a rest i hp hlow hhigh hdec => ?_, fun s hp => step_of_pending_nil hp⟩
  exact step_of_fetch hp (fetch_of_decode (windowOffset_eq_some.mpr ⟨hlow, hhigh, rfl⟩) hdec)

/-- Settles O8: a command's row and a CMD write run the same command, which leaves the host port. -/
theorem cmdWriteRunsItsCommand : Obligations.CmdWriteRunsItsCommand := by
  unfold Obligations.CmdWriteRunsItsCommand
  refine ⟨fun v i s hdec => ?_, fun v s => ?_, fun s => rfl⟩
  · cases hdec
    exact (exec_toInstr (decodeCommand v) s).symm
  · obtain ⟨f, hf⟩ := runCommand_eq_onRgd (decodeCommand v)
    exact ⟨_, hf s, rfl⟩

/-- Settles O19: a register of one field reads as that field, and the status words by their fields' places. -/
theorem registerReadsReturnTheirFields : Obligations.RegisterReadsReturnTheirFields := by
  unfold Obligations.RegisterReadsReturnTheirFields
  intro s reads
  exact ⟨⟨_, rfl, rfl⟩, ⟨_, toNat_zeroExtend _, rfl⟩, ⟨_, toNat_zeroExtend _, rfl⟩, ⟨_, toNat_zeroExtend _, rfl⟩,
    ⟨_, toNat_zeroExtend _, rfl⟩, ⟨_, toNat_zeroExtend _, rfl⟩, ⟨_, toNat_zeroExtend _, rfl⟩,
    ⟨_, toNat_zeroExtend _, rfl⟩, ⟨_, toNat_zeroExtend _, rfl⟩, ⟨_, toNat_zeroExtend _, rfl⟩,
    ⟨_, piStatWord_toNat _, rfl⟩, ⟨_, toNat_zeroExtend _, rfl⟩, ⟨_, psStatWord_toNat _, rfl⟩,
    ⟨_, rtStatWord_toNat _, rfl⟩, ⟨_, ctStatWord_toNat _, rfl⟩, ⟨_, toNat_zeroExtend _, rfl⟩⟩

/-- Settles O22: each write stores the low bits of its value in its own register. -/
theorem inputWritesStoreTheLowBits : Obligations.InputWritesStoreTheLowBits := by
  unfold Obligations.InputWritesStoreTheLowBits
  intro v s leaves
  simp only [leaves, ← extractLsb'_zero_eq_ofNat]
  exact ⟨rfl, rfl, rfl, rfl, rfl, rfl⟩

/-- Settles O23, as O22: the stored field is the low bits of the value. -/
theorem configurationWritesStoreTheirFields : Obligations.ConfigurationWritesStoreTheirFields := by
  unfold Obligations.ConfigurationWritesStoreTheirFields
  intro v s
  simp only [← extractLsb'_zero_eq_ofNat]
  exact ⟨rfl, rfl⟩

/-- Settles O24, bit by bit. -/
theorem readyWriteClearsTheBitsWrittenAsOne : Obligations.ReadyWriteClearsTheBitsWrittenAsOne := by
  unfold Obligations.ReadyWriteClearsTheBitsWrittenAsOne
  intro v s
  exact ⟨(s.rgd.clearReady v).ready, rfl, clearReady_getLsbD s.rgd v⟩

/-- Settles O25: each of these rows is an ignored write. -/
theorem readOnlyAndReservedWritesAreIgnored : Obligations.ReadOnlyAndReservedWritesAreIgnored := by
  unfold Obligations.ReadOnlyAndReservedWritesAreIgnored
  intro s v off
  exact ⟨rfl, rfl, rfl, rfl, rfl, rfl, rfl, rfl, rfl, rfl⟩

/-- Settles O26: the read answers the low bits that the write stored. -/
theorem registersReadBackTheirWritableBits : Obligations.RegistersReadBackTheirWritableBits := by
  unfold Obligations.RegistersReadBackTheirWritableBits
  intro v s pair
  exact ⟨⟨_, _, rfl, rfl, _, toNat_zeroExtend_extractLsb' v 8, rfl, rfl⟩,
    ⟨_, _, rfl, rfl, _, toNat_zeroExtend_extractLsb' v 16, rfl, rfl⟩,
    ⟨_, _, rfl, rfl, _, toNat_zeroExtend_extractLsb' v 16, rfl, rfl⟩,
    ⟨_, _, rfl, rfl, _, toNat_zeroExtend_extractLsb' v 16, rfl, rfl⟩,
    ⟨_, _, rfl, rfl, _, toNat_zeroExtend_extractLsb' v 16, rfl, rfl⟩,
    ⟨_, _, rfl, rfl, _, toNat_zeroExtend_extractLsb' v 16, rfl, rfl⟩,
    ⟨_, _, rfl, rfl, _, toNat_zeroExtend_extractLsb' v 19, rfl, rfl⟩,
    ⟨_, _, rfl, rfl, _, toNat_zeroExtend_extractLsb' v 10, rfl, rfl⟩⟩

/-- Settles O27: a store of the same bits, and a clearing of the same READY bits, is idempotent. -/
theorem registerWritesAreIdempotent : Obligations.RegisterWritesAreIdempotent := by
  unfold Obligations.RegisterWritesAreIdempotent
  intro v i s t hi h
  simp only [List.mem_cons, List.not_mem_nil, or_false] at hi
  rcases hi with rfl | rfl | rfl | rfl | rfl | rfl | rfl | rfl | rfl
  on_goal 9 => exact exec_repeat (Rgd.clearReady v) (fun _ => rfl) (Rgd.clearReady_clearReady v) h
  all_goals exact exec_repeat _ (fun _ => rfl) (fun _ => rfl) h

end Sys2Proof.Machine
end

section
/-! PROOFS of the family 30_encoding.md. The register map says which register a word offset names, and WellFormed and
encode, written from the tables, say it again: first that the two agree (R47, R48) and that the command words do (R72
to R74), from which decoding and encoding are inverse; then the run of register writes that the pseudo-instruction
feed is (R79); and the obligations. -/

namespace Sys2Proof.Machine

/-! Window offsets: the register map against the tables (R47, R48). -/

/-- What an offset names is the register of a row that holds it. -/
theorem exists_row_of_regAt_eq_some {off : Nat} {r : Reg} (h : regAt off = some r) :
    ∃ row ∈ registerMap, (row.first ≤ off ∧ off ≤ row.last) ∧ row.reg = r := by
  obtain ⟨row, hfind, hreg⟩ := Option.map_eq_some_iff.mp h
  exact ⟨row, List.mem_of_find?_eq_some hfind, by simpa using List.find?_some hfind, hreg⟩

/-- No two rows of the register map overlap, so every row that holds an offset says what it names (R48). -/
theorem regAt_eq_some_iff {off : Nat} {r : Reg} :
    regAt off = some r ↔ ∃ row ∈ registerMap, (row.first ≤ off ∧ off ≤ row.last) ∧ row.reg = r := by
  have hdisjoint : ∀ a ∈ registerMap, ∀ b ∈ registerMap, a = b ∨ a.last < b.first ∨ b.last < a.first := by decide
  refine ⟨exists_row_of_regAt_eq_some, ?_⟩
  rintro ⟨row, hmem, ⟨hfirst, hlast⟩, rfl⟩
  have hsome : (regAt off).isSome = true := by
    rw [regAt, Option.isSome_map, List.find?_isSome]
    exact ⟨row, hmem, by simp [hfirst, hlast]⟩
  obtain ⟨r', hr'⟩ := Option.isSome_iff_exists.mp hsome
  obtain ⟨row', hmem', ⟨hfirst', hlast'⟩, rfl⟩ := exists_row_of_regAt_eq_some hr'
  rcases hdisjoint row hmem row' hmem' with rfl | hlt | hlt
  · exact hr'
  · omega
  · omega

/-- A register's read is well-formed and encoded at an offset exactly where that is a word offset of the register. -/
theorem encode_readInstr_iff {off : Nat} {r : Reg} :
    ((readInstr off r).wellFormed = true ∧ encode (readInstr off r) = .access .read 4 off) ↔
      off % 4 = 0 ∧ regAt off = some r := by
  rw [regAt_eq_some_iff]
  simp only [registerMap, List.mem_cons, List.not_mem_nil, or_false, exists_eq_or_imp, exists_eq_left]
  cases r <;> simp [readInstr, Instr.wellFormed, encode, reservedOffset, wordOffsetIn] <;> omega

theorem wellFormed_writeInstr (off : Nat) (v : Word) (r : Reg) :
    (writeInstr off v r).wellFormed = (readInstr off r).wellFormed := by
  cases r <;> rfl

/-- The tables have a register's write where they have its read (R80). -/
theorem encode_writeInstr_eq_iff {off : Nat} {v : Word} {r : Reg} :
    encode (writeInstr off v r) = .access (.write v) 4 off ↔ encode (readInstr off r) = .access .read 4 off := by
  cases r <;> simp [writeInstr, readInstr, encode]

/-- The same for both directions of an access. -/
theorem encode_busInstr_iff {off : Nat} {r : Reg} (d : Dir) :
    ((busInstr off r d).wellFormed = true ∧ encode (busInstr off r d) = .access d 4 off) ↔
      off % 4 = 0 ∧ regAt off = some r := by
  rw [← encode_readInstr_iff]
  cases d with
  | read => rfl
  | write v => rw [busInstr, wellFormed_writeInstr, encode_writeInstr_eq_iff]

/-- A well-formed row decodes from the offset at which it is encoded. -/
theorem decode_encode_busInstr {off : Nat} (r : Reg) (d : Dir) (hwf : (busInstr off r d).wellFormed = true)
    (henc : encode (busInstr off r d) = .access d 4 off) :
    decode (encode (busInstr off r d)) = .ok (busInstr off r d) := by
  obtain ⟨halign, hr⟩ := (encode_busInstr_iff d).mp ⟨hwf, henc⟩
  rw [henc, decode_access_eq_ok]
  exact ⟨rfl, halign, r, hr, rfl⟩

/-! Command words (R72 to R74). -/

/-- The reserved words are those from 4 on (R74). -/
theorem reservedCommand_iff {w : Word} : reservedCommand w = true ↔ 4 ≤ w.toNat := by
  have hw := w.isLt
  rw [reservedCommand, Bool.or_eq_true, decide_eq_true_eq, decide_eq_true_eq, ne_eq, ← BitVec.toNat_inj,
    extractLsb'_toNat', extractLsb'_toNat', BitVec.toNat_zero]
  omega

theorem decodeCommand_of_reservedCommand {w : Word} (h : reservedCommand w = true) :
    decodeCommand w = .reserved w := by
  rw [reservedCommand_iff] at h
  rcases decodeCommand_cases w with ⟨rfl, -⟩ | ⟨rfl, -⟩ | ⟨rfl, -⟩ | ⟨rfl, -⟩ | ⟨-, hd⟩
  · exact absurd h (by decide)
  · exact absurd h (by decide)
  · exact absurd h (by decide)
  · exact absurd h (by decide)
  · exact hd

/-- The row of a decoded command is well-formed and has the word as its encoding (R73, R74). -/
theorem encode_decodeCommand (w : Word) :
    (decodeCommand w).toInstr.wellFormed = true ∧ encode (decodeCommand w).toInstr = .command w := by
  rcases decodeCommand_cases w with ⟨rfl, hd⟩ | ⟨rfl, hd⟩ | ⟨rfl, hd⟩ | ⟨rfl, hd⟩ | ⟨hw, hd⟩ <;> rw [hd]
  · exact ⟨rfl, rfl⟩
  · exact ⟨rfl, rfl⟩
  · exact ⟨rfl, rfl⟩
  · exact ⟨rfl, rfl⟩
  · exact ⟨reservedCommand_iff.mpr hw, rfl⟩

/-! Runs of register writes (R54, R57, R60). -/

/-- An access at a word offset of the window is fetched as the row of the register there (R46). -/
theorem fetch_of_regAt {h : HostPort} {d : Dir} {off : Nat} {r : Reg} (halign : off % 4 = 0)
    (hr : regAt off = some r) :
    fetch h { dir := d, bytes := 4, addr := 0x200 * h.pBaseBlock + off } = .ok (busInstr off r d) := by
  have hlt := lt_of_regAt_eq_some hr
  have hoff : h.windowOffset (0x200 * h.pBaseBlock + off) = some off :=
    windowOffset_eq_some.mpr ⟨by omega, by omega, by omega⟩
  exact fetch_of_decode hoff (decode_access_eq_ok.mpr ⟨rfl, halign, r, hr, rfl⟩)

/-- When the oldest pending event writes the register `r` with the effect `f`, a run takes it and goes on. -/
theorem run_succ_of_write {s : State} {off : Nat} {v : Word} {rest : List HostEvent} (k : Nat) (r : Reg)
    (f : Rgd → Rgd)
    (hp : s.host.pending =
      .access { dir := .write v, bytes := 4, addr := 0x200 * s.host.pBaseBlock + off } :: rest)
    (halign : off % 4 = 0) (hr : regAt off = some r)
    (hexec : ∀ u : State, exec (writeInstr off v r) u = .next (u.onRgd f)) :
    Host.Core.run Sys2Proof.core (k + 1) s = Host.Core.run Sys2Proof.core k ((s.taken rest).onRgd f) :=
  run_succ_of_step k ((step_of_fetch hp (fetch_of_regAt halign hr)).trans (hexec _))

/-- A register of `n` bits stores a written operand of `n` bits whole (R54). -/
theorem extractLsb'_setWidth_self {n : Nat} (x : BitVec n) (hn : n ≤ 32 := by decide) :
    (x.setWidth 32).extractLsb' 0 n = x := by
  rw [extractLsb'_zero_eq_ofNat, toNat_zeroExtend x hn, BitVec.ofNat_toNat, BitVec.setWidth_eq]

/-! The obligations. -/

/-- Settles O2: the rows with one offset or one word evaluate; a range of offsets or of words is found by the decoder
where WellFormed has it. -/
theorem decodeInvertsEncode : Obligations.DecodeInvertsEncode := by
  unfold Obligations.DecodeInvertsEncode
  intro i hwf
  cases i with
  | reserved w => exact congrArg (Except.ok ∘ Command.toInstr) (decodeCommand_of_reservedCommand hwf)
  | rdPsWin off => exact decode_encode_busInstr .psWin .read hwf rfl
  | wrPsWin off v => exact decode_encode_busInstr .psWin (.write v) hwf rfl
  | rdRtaWin off => exact decode_encode_busInstr .rtaWin .read hwf rfl
  | wrRtaWin off v => exact decode_encode_busInstr .rtaWin (.write v) hwf rfl
  | rdRtbWin off => exact decode_encode_busInstr .rtbWin .read hwf rfl
  | wrRtbWin off v => exact decode_encode_busInstr .rtbWin (.write v) hwf rfl
  | rdReserved off => exact decode_encode_busInstr .reserved .read hwf rfl
  | wrReserved off v => exact decode_encode_busInstr .reserved (.write v) hwf rfl
  | nop | init | sreset | feed => rfl
  | rdCmd | rdInStatus | rdInBlkA | rdInBlkB | rdInBlkC | rdInBlkD | rdInErr | rdCtrl | rdThr | rdReady | rdPiStat
  | rdPtyStat | rdPsStat | rdRtStat | rdCtStat | rdClass => rfl
  | wrCmd | wrInStatus | wrInBlkA | wrInBlkB | wrInBlkC | wrInBlkD | wrInErr | wrCtrl | wrThr | wrReady | wrPiStat
  | wrPtyStat | wrPsStat | wrRtStat | wrCtStat | wrClass => rfl

/-- Settles O3: a command by its word, an access by the register that its offset names. -/
theorem encodeInvertsDecode : Obligations.EncodeInvertsDecode := by
  unfold Obligations.EncodeInvertsDecode
  intro e i hdec
  cases e with
  | command w =>
    cases hdec
    exact encode_decodeCommand w
  | access d bytes off =>
    obtain ⟨rfl, halign, r, hr, rfl⟩ := decode_access_eq_ok.mp hdec
    exact (encode_busInstr_iff d).mpr ⟨halign, hr⟩

/-- Settles O56, write by write: each of the first six sets its input register to its operand, and the seventh runs
FEED. -/
theorem feedPseudoInstructionFeedsItsOperands : Obligations.FeedPseudoInstructionFeedsItsOperands := by
  unfold Obligations.FeedPseudoInstructionFeedsItsOperands
  intro s st a b c d e rest hp
  rw [run_succ_of_write 6 .inStatus _ hp rfl rfl fun _ => rfl,
    run_succ_of_write 5 .inBlkA _ rfl rfl rfl fun _ => rfl,
    run_succ_of_write 4 .inBlkB _ rfl rfl rfl fun _ => rfl,
    run_succ_of_write 3 .inBlkC _ rfl rfl rfl fun _ => rfl,
    run_succ_of_write 2 .inBlkD _ rfl rfl rfl fun _ => rfl,
    run_succ_of_write 1 .inErr _ rfl rfl rfl fun _ => rfl,
    run_succ_of_write 0 .cmd feed rfl rfl rfl fun _ => rfl]
  simp only [extractLsb'_setWidth_self st, extractLsb'_setWidth_self a, extractLsb'_setWidth_self b,
    extractLsb'_setWidth_self c, extractLsb'_setWidth_self d, extractLsb'_setWidth_self e]
  rfl

/-- Settles O1: each word or offset is what encode gives its instruction, and decoding inverts encoding. -/
theorem writtenWordsDecode : Obligations.WrittenWordsDecode := by
  unfold Obligations.WrittenWordsDecode
  exact ⟨decodeInvertsEncode .nop rfl, decodeInvertsEncode .init rfl, decodeInvertsEncode .sreset rfl,
    decodeInvertsEncode .feed rfl, decodeInvertsEncode (.reserved 0x00000103#32) rfl,
    decodeInvertsEncode (.reserved 0x000000FF#32) rfl, decodeInvertsEncode .rdRtStat rfl,
    decodeInvertsEncode (.rdRtaWin 0x140) rfl, decodeInvertsEncode (.rdReserved 0x01C) rfl,
    fun v => decodeInvertsEncode (.wrCmd v) rfl, fun v => decodeInvertsEncode (.wrReady v) rfl,
    fun v => decodeInvertsEncode (.wrReserved 0x144 v) rfl⟩

end Sys2Proof.Machine
end

section
/-! PROOFS of the family 40_classifier.md. The group type as a number, which needs no remainder, since a block has 16
bits (R83); the error levels, the version and the acceptance test stand in the laws (R81, R82, R85); and the
obligations. -/

namespace Sys2Proof.Machine

/-- `group_type` (R83) as a number: no bit of block B stands above it. -/
theorem groupType_toNat (g : Inputs) : (groupType g).toNat = g.blkB.toNat / 4096 := by
  have hb := g.blkB.isLt
  rw [groupType, extractLsb'_toNat']
  omega

/-- Settles O28: each function reads its own field of the group. -/
theorem classifierReadsItsFields : Obligations.ClassifierReadsItsFields := by
  unfold Obligations.ClassifierReadsItsFields
  intro g
  exact ⟨errorLevel_toNat g .A, errorLevel_toNat g .B, errorLevel_toNat g .C, errorLevel_toNat g .D,
    protocolVersion_eq_B g, groupType_toNat g⟩

/-- Settles O29: `accept` is the unsigned compare of R85. -/
theorem acceptanceComparesUnsigned : Obligations.AcceptanceComparesUnsigned := by
  unfold Obligations.AcceptanceComparesUnsigned
  exact accept_iff

end Sys2Proof.Machine
end

section
/-! PROOFS of the family 41_pi_pty.md. First when an identification or a program type is new, and what the two stages
of a FEED then do (R88 to R96); then that the extractors behind the dispatcher, given the same group again, write what
stands there already (R101, R106, R115); and the obligations. -/

namespace Sys2Proof.Machine

/-! The identification (R88 to R91). -/

/-- The candidate is accepted, and no value was accepted before or it differs from the shadow (R88, R90). -/
def Rgd.PiNew (r : Rgd) : Prop :=
  accept (piCandidate r.inp).2 r.thrPi = true ∧ (r.pi.avail = false ∨ (piCandidate r.inp).1 ≠ r.pi.shadow)

theorem piExtract_of_piNew {r : Rgd} (h : r.PiNew) :
    piExtract r =
      { r with pi := { code := (piCandidate r.inp).1, shadow := (piCandidate r.inp).1, avail := true } }.raise .pi := by
  rw [piExtract, if_pos h.1, piUpdate, if_pos h.2]

/-- R91, and R90 for a value seen before. -/
theorem piExtract_of_not_piNew {r : Rgd} (h : ¬r.PiNew) : piExtract r = r := by
  unfold piExtract piUpdate
  split
  next haccept => exact if_neg fun hnew => h ⟨haccept, hnew⟩
  next => rfl

/-- R89 in the claims' own reading. -/
theorem piCandidate_eq_ite (g : Inputs) :
    piCandidate g = if g.piFromC then (g.blkC, errorLevel g .C) else (g.blkA, errorLevel g .A) := by
  unfold piCandidate
  split
  next hA => rw [if_neg fun hC => (protocolVersion_eq_A g).mp hA hC.1]
  next hB =>
    refine if_congr ?_ rfl rfl
    rw [Inputs.piFromC, and_iff_right ((protocolVersion_eq_B g).mp hB), BitVec.ult, decide_eq_true_iff,
      errorLevel_toNat, errorLevel_toNat]

theorem thrPi_toNat (r : Rgd) : r.thrPi.toNat = r.thr.toNat % 4 := by
  rw [Rgd.thrPi, extractLsb'_toNat', pow_zero, Nat.div_one]
  rfl

/-- `PiNew` as numbers, for the candidate block and its level. -/
theorem piNew_iff {r : Rgd} {cand : Half} {lvl : Nat}
    (hcand : (piCandidate r.inp).1 = cand) (hlvl : (piCandidate r.inp).2.toNat = lvl) :
    r.PiNew ↔ lvl ≤ r.thr.toNat % 4 ∧ (r.pi.avail = false ∨ cand ≠ r.pi.shadow) := by
  rw [Rgd.PiNew, accept_iff, thrPi_toNat, hcand, hlvl]

/-- What PI_EXTRACT leaves in the PI group depends on the candidate, THR and the group alone (R88). -/
theorem piExtract_pi_congr {r x : Rgd} (hcand : piCandidate x.inp = piCandidate r.inp) (hthr : x.thr = r.thr)
    (hpi : x.pi = r.pi) : (piExtract x).pi = (piExtract r).pi := by
  have hiff : x.PiNew ↔ r.PiNew := by rw [Rgd.PiNew, Rgd.thrPi, hcand, hthr, hpi, Rgd.PiNew, Rgd.thrPi]
  by_cases h : r.PiNew
  · rw [piExtract_of_piNew h, piExtract_of_piNew (hiff.mpr h), hcand]
    rfl
  · rw [piExtract_of_not_piNew h, piExtract_of_not_piNew (h ∘ hiff.mp), hpi]

/-- Given the same group again, PI_EXTRACT finds nothing new (R92): the shadow is the candidate where it was
accepted. -/
theorem not_piNew_after_piExtract {r x : Rgd} (hinp : x.inp = r.inp) (hthr : x.thr = r.thr)
    (hpi : x.pi = (piExtract r).pi) : ¬x.PiNew := by
  rw [Rgd.PiNew, Rgd.thrPi, hinp, hthr, hpi]
  by_cases h : r.PiNew
  · rw [piExtract_of_piNew h]
    simp
  · rwa [piExtract_of_not_piNew h]

/-! The program type (R94 to R96, R122). -/

/-- CTRL.PTY_EN is set, and the code is not 0 and not the one PTY holds (R95, R122). -/
def Rgd.PtyNew (r : Rgd) : Prop := r.ptyEn = true ∧ ptyCode r.inp ≠ 0#5 ∧ ptyCode r.inp ≠ r.pty

theorem ptyStage_of_ptyNew {r : Rgd} (h : r.PtyNew) : ptyStage r = { r with pty := ptyCode r.inp }.raise .pty := by
  rw [ptyStage, if_pos h.1, ptyExtract, if_pos h.2]

theorem ptyStage_of_not_ptyNew {r : Rgd} (h : ¬r.PtyNew) : ptyStage r = r := by
  unfold ptyStage ptyExtract
  split
  next hen => exact if_neg fun hnew => h ⟨hen, hnew⟩
  next => rfl

/-- `pty_code` (R71) as a number. -/
theorem ptyCode_toNat (g : Inputs) : (ptyCode g).toNat = g.ptyNumber := extractLsb'_toNat' g.blkB 5 5

/-- `PtyNew` as numbers. -/
theorem ptyNew_iff (r : Rgd) :
    r.PtyNew ↔ r.ctrl.getLsbD 16 = true ∧ r.inp.ptyNumber ≠ 0 ∧ r.inp.ptyNumber ≠ r.pty.toNat := by
  simp only [Rgd.PtyNew, Rgd.ptyEn, ne_eq, ← BitVec.toNat_inj, ptyCode_toNat]
  rfl

/-- The identification plays no part in the program type. -/
theorem ptyNew_piExtract (r : Rgd) : (piExtract r).PtyNew ↔ r.PtyNew := by
  simp only [Rgd.PtyNew, Rgd.ptyEn, piExtract_inp, piExtract_ctrl, piExtract_pty]

/-- Given the same group again, the PTY stage finds nothing new (R95). -/
theorem not_ptyNew_after_ptyStage {r x : Rgd} (hinp : x.inp = r.inp) (hctrl : x.ctrl = r.ctrl)
    (hpty : x.pty = (ptyStage r).pty) : ¬x.PtyNew := by
  rw [Rgd.PtyNew, Rgd.ptyEn, hinp, hctrl, hpty]
  by_cases h : r.PtyNew
  · rw [ptyStage_of_ptyNew h]
    simp
  · rwa [ptyStage_of_not_ptyNew h]

/-! The two stages in a FEED (R121, R122). -/

/-- The dispatcher touches no ready bit but RDY_PS, RDY_RT and RDY_CT (R125). -/
theorem dispatch_ready_other (r : Rgd) (i : Nat) (h2 : i ≠ 2) (h3 : i ≠ 3) (h4 : i ≠ 4) :
    (dispatch r).ready.getLsbD i = r.ready.getLsbD i := by
  rcases dispatch_cases r with ⟨-, -, -, h⟩ | ⟨-, h⟩ | ⟨-, h⟩ | ⟨-, -, h⟩ <;> rw [h]
  · exact psExtract_ready_other r i h2
  · exact rtExtract_ready_other r i h3
  · exact ctExtract_ready_other r i h4

theorem feed_ready_pi (r : Rgd) : (feed r).ready.getLsbD 0 = (piExtract (classify r)).ready.getLsbD 0 := by
  rw [feed, dispatch_ready_other _ 0 (by decide) (by decide) (by decide), ptyStage_ready_other _ 0 (by decide)]

theorem feed_ready_pty (r : Rgd) :
    (feed r).ready.getLsbD 1 = (ptyStage (piExtract (classify r))).ready.getLsbD 1 := by
  rw [feed, dispatch_ready_other _ 1 (by decide) (by decide) (by decide)]

theorem feed_of_piNew {r : Rgd} (h : r.PiNew) :
    (feed r).pi = { code := (piCandidate r.inp).1, shadow := (piCandidate r.inp).1, avail := true } ∧
      (feed r).ready.getLsbD 0 = true := by
  have hclassify : (classify r).PiNew := h
  rw [feed_pi, feed_ready_pi, piExtract_of_piNew hclassify, raise_getLsbD]
  exact ⟨rfl, Bool.or_true _⟩

theorem feed_of_not_piNew {r : Rgd} (h : ¬r.PiNew) :
    (feed r).pi = r.pi ∧ (feed r).ready.getLsbD 0 = r.ready.getLsbD 0 := by
  have hclassify : ¬(classify r).PiNew := h
  rw [feed_pi, feed_ready_pi, piExtract_of_not_piNew hclassify]
  exact ⟨rfl, rfl⟩

theorem feed_of_ptyNew {r : Rgd} (h : r.PtyNew) :
    (feed r).pty = ptyCode r.inp ∧ (feed r).ready.getLsbD 1 = true := by
  have hstage : (piExtract (classify r)).PtyNew := (ptyNew_piExtract _).mpr h
  rw [feed_pty, feed_ready_pty, ptyStage_of_ptyNew hstage, raise_getLsbD, Rgd.raise_pty, piExtract_inp]
  exact ⟨rfl, Bool.or_true _⟩

theorem feed_of_not_ptyNew {r : Rgd} (h : ¬r.PtyNew) :
    (feed r).pty = r.pty ∧ (feed r).ready.getLsbD 1 = r.ready.getLsbD 1 := by
  have hstage : ¬(piExtract (classify r)).PtyNew := fun hnew => h ((ptyNew_piExtract (classify r)).mp hnew)
  rw [feed_pty, feed_ready_pty, ptyStage_of_not_ptyNew hstage, piExtract_ready_other _ 1 (by decide), piExtract_pty]
  exact ⟨rfl, rfl⟩

/-! The same group again (R92, R101, R106, R115). -/

/-- Two machines with the same raw group and the same configuration (R18 to R22). -/
structure Rgd.SameSetting (r x : Rgd) : Prop where
  inp : x.inp = r.inp
  ctrl : x.ctrl = r.ctrl
  thr : x.thr = r.thr

/-- The group and the configuration alone choose the extractor (R123). -/
theorem dispatch_same_route {r x : Rgd} (h : r.SameSetting x) :
    (dispatch r = r ∧ dispatch x = x) ∨ (dispatch r = psExtract r ∧ dispatch x = psExtract x) ∨
    (dispatch r = rtExtract r ∧ dispatch x = rtExtract x) ∨ (dispatch r = ctExtract r ∧ dispatch x = ctExtract x) := by
  obtain ⟨hinp, hctrl, hthr⟩ := h
  simp only [dispatch, Rgd.thrGt, Rgd.gtEn, route, hinp, hctrl, hthr]
  by_cases hgate : accept (errorLevel r.inp .B) (r.thr.extractLsb' 2 2) = false
  · simp only [hgate, ↓reduceIte, and_self, true_or]
  by_cases hen : r.ctrl.getLsbD (groupType r.inp).toNat = false
  · simp only [hen, ↓reduceIte, ite_self, and_self, true_or]
  simp only [hgate, hen]
  generalize (groupType r.inp).toNat = t
  match t with
  | 0 => exact .inr (.inl ⟨rfl, rfl⟩)
  | 2 => exact .inr (.inr (.inl ⟨rfl, rfl⟩))
  | 4 =>
    cases protocolVersion r.inp with
    | A => exact .inr (.inr (.inr ⟨rfl, rfl⟩))
    | B => exact .inl ⟨rfl, rfl⟩
  | 1 | 3 | _ + 5 => exact .inl ⟨rfl, rfl⟩

/-- How `f`, an extractor or a whole FEED, that has run on `q` runs on `u`, which holds what it wrote: it changes
nothing, or it sets a ready bit, RDY_RT or RDY_CT, which it had set before. -/
inductive Repeats (f : Rgd → Rgd) (q u : Rgd) : Prop
  | quiet (again : f u = u) (first : ∀ i, 3 ≤ i → (f q).ready.getLsbD i = q.ready.getLsbD i)
  | raises (b : ReadyBit) (textOrClock : 3 ≤ b.index) (again : f u = u.raise b)
    (first : ∀ i, 3 ≤ i → (f q).ready.getLsbD i = (q.raise b).ready.getLsbD i)

theorem Repeats.congr {f g : Rgd → Rgd} {q u : Rgd} (h : Repeats f q u) (hq : g q = f q) (hu : g u = f u) :
    Repeats g q u := by
  cases h with
  | quiet again first => exact .quiet (hu.trans again) (by rwa [hq])
  | raises b htext again first => exact .raises b htext (hu.trans again) (by rwa [hq])

theorem psWrite_of_writeChars_eq {r : Rgd}
    (h : accept (errorLevel r.inp .D) r.thrPs = true →
      writeChars r.ps.buf (2 * (psSegment r.inp).toNat) r.inp.blkD = r.ps.buf) : psWrite r = r := by
  unfold psWrite
  split
  next haccept => rw [h haccept]
  next => rfl

/-- An accepted block D stands in the name after the character write (R98). -/
theorem writeChars_psWrite_buf {r : Rgd} (h : accept (errorLevel r.inp .D) r.thrPs = true) :
    writeChars (psWrite r).ps.buf (2 * (psSegment r.inp).toNat) r.inp.blkD = (psWrite r).ps.buf := by
  have hseg := (psSegment r.inp).isLt
  rw [psWrite, if_pos h]
  exact writeChars_idem _ _ _ (by omega)

/-- PS_EXTRACT writes the characters that stand there, which the shadow holds already (R101). -/
theorem psExtract_repeats (q : Rgd) (v : Word) : Repeats psExtract q ((psExtract q).clearReady v) := by
  refine .quiet ?_ fun i hi => psExtract_ready_other q i (by omega)
  have hwrite : psWrite ((psExtract q).clearReady v) = (psExtract q).clearReady v := by
    apply psWrite_of_writeChars_eq
    simp only [Rgd.clearReady_inp, Rgd.thrPs, Rgd.clearReady_thr, Rgd.clearReady_ps, psExtract,
      psDiff_inp, psWrite_inp, psDiff_thr, psWrite_thr, psDiff_buf]
    exact writeChars_psWrite_buf
  rw [psExtract, hwrite, psDiff, if_neg (not_not.mpr ?_)]
  exact (chars_eq_shadow_iff _).mpr fun i hi => (psExtract_psShadowed q i hi).symm

theorem Rgd.raise_raise (b : ReadyBit) (r : Rgd) : (r.raise b).raise b = r.raise b := by
  simp only [Rgd.raise, BitVec.or_assoc, BitVec.or_self]

/-- Buffer `b` holds the two characters of `w` at `i`, and its mark is past them (R51, R108). -/
structure RtGroup.HoldsChars (g : RtGroup) (b : RtSel) (i : Nat) (w : Half) : Prop where
  high : byteAt (g.buf b) i = charHigh w
  low : byteAt (g.buf b) (i + 1) = charLow w
  mark : ((i + 2 : Nat) : Int) ≤ (g.hwm b).toInt

theorem rtWrite_holdsChars (b : RtSel) {i : Nat} (w : Half) (r : Rgd) (hi : i ≤ 62) :
    (rtWrite b i w r).rt.HoldsChars b i w := by
  constructor <;> rw [rtWrite_rt]
  · rw [RtGroup.setHalf_buf_self, byteAt_writeChars _ _ _ _ (by omega), if_pos rfl]
  · rw [RtGroup.setHalf_buf_self, byteAt_writeChars _ _ _ _ (by omega), if_neg (by omega), if_pos rfl]
  · rw [RtGroup.setHalf_hwm_self, markRaise_toInt _ _ (by omega)]
    exact le_max_right _ _

/-- A later half leaves the characters before it. -/
theorem RtGroup.HoldsChars.rtWrite_after {b : RtSel} {i j : Nat} {w : Half} {r : Rgd} (w' : Half)
    (h : r.rt.HoldsChars b i w) (hij : i + 2 ≤ j) (hj : j ≤ 62) : (rtWrite b j w' r).rt.HoldsChars b i w := by
  obtain ⟨hhigh, hlow, hmark⟩ := h
  constructor <;> rw [rtWrite_rt]
  · rwa [RtGroup.setHalf_buf_self, byteAt_writeChars _ _ _ _ (by omega), if_neg (by omega), if_neg (by omega)]
  · rwa [RtGroup.setHalf_buf_self, byteAt_writeChars _ _ _ _ (by omega), if_neg (by omega), if_neg (by omega)]
  · rw [RtGroup.setHalf_hwm_self, markRaise_toInt _ _ (by omega)]
    exact hmark.trans (le_max_left _ _)

theorem RtGroup.setHalf_self (g : RtGroup) (b : RtSel) : g.setHalf b (g.buf b) (g.hwm b) = g := by cases b <;> rfl

/-- Writing characters that stand there already only sets RDY_RT (R106). -/
theorem rtWrite_of_holdsChars {b : RtSel} {i : Nat} {w : Half} {r : Rgd} (hi : i ≤ 62)
    (h : r.rt.HoldsChars b i w) : rtWrite b i w r = r.raise .rt := by
  obtain ⟨hhigh, hlow, hmark⟩ := h
  have hbuf : writeChars (r.rt.buf b) i w = r.rt.buf b := by
    apply buf_ext
    intro k _
    rw [byteAt_writeChars _ _ _ _ (by omega), ← hhigh, ← hlow]
    split_ifs with hk hk <;> simp [*]
  have hhwm : markRaise (r.rt.hwm b) (i + 2) = r.rt.hwm b := by
    apply BitVec.eq_of_toInt_eq
    rw [markRaise_toInt _ _ (by omega), max_eq_left hmark]
  rw [rtWrite, hbuf, hhwm, RtGroup.setHalf_self]

/-- A half of RT_EXTRACT (R103, R104, R105): whether its block is accepted, the first index and the characters. -/
structure RtHalf where
  accepted : Bool
  index : Nat
  chars : Half

/-- The write of an accepted half; a rejected one does nothing. -/
def RtHalf.run (b : RtSel) (p : RtHalf) (r : Rgd) : Rgd := if p.accepted then rtWrite b p.index p.chars r else r

/-- The selection of a buffer, then two halves of it (R102). -/
def rtHalves (b : RtSel) (c d : RtHalf) (r : Rgd) : Rgd := d.run b (c.run b (rtSelect b r))

/-- RT_EXTRACT runs the half of block C and that of block D; a version B group has only the latter (R102). The group and
the configuration fix them, and they do not overlap. -/
theorem rtExtract_eq_halves (r : Rgd) :
    ∃ (b : RtSel) (c d : RtHalf), c.index ≤ 62 ∧ d.index ≤ 62 ∧ (c.accepted = true → c.index + 2 ≤ d.index) ∧
      ∀ x, r.SameSetting x → rtExtract x = rtHalves b c d x := by
  have hseg := (rtSegment r.inp).isLt
  cases hv : protocolVersion r.inp with
  | A =>
    refine ⟨rtSelector r.inp, ⟨accept (errorLevel r.inp .C) r.thrRt, 4 * (rtSegment r.inp).toNat, r.inp.blkC⟩,
      ⟨accept (errorLevel r.inp .D) r.thrRt, 4 * (rtSegment r.inp).toNat + 2, r.inp.blkD⟩,
      by dsimp only; omega, by dsimp only; omega, fun _ => le_rfl, ?_⟩
    rintro x ⟨hinp, -, hthr⟩
    simp only [rtExtract, hinp, hv, rtHalfDA, rtHalfCA_inp, Rgd.thrRt, rtHalfCA_thr, rtSelect_inp, rtSelect_thr, hthr]
    simp only [rtHalfCA, rtSelect_inp, Rgd.thrRt, rtSelect_thr, hinp, hthr]
    rfl
  | B =>
    refine ⟨rtSelector r.inp, ⟨false, 0, 0x0000#16⟩,
      ⟨accept (errorLevel r.inp .D) r.thrRt, 2 * (rtSegment r.inp).toNat, r.inp.blkD⟩,
      by dsimp only; omega, by dsimp only; omega, nofun, ?_⟩
    rintro x ⟨hinp, -, hthr⟩
    simp only [rtExtract, hinp, hv, rtHalfDB, rtSelect_inp, Rgd.thrRt, rtSelect_thr, hthr]
    rfl

theorem RtHalf.run_sel (b : RtSel) (p : RtHalf) (r : Rgd) : (p.run b r).rt.sel = r.rt.sel := by
  unfold RtHalf.run
  split
  · rw [rtWrite_rt, RtGroup.setHalf_sel]
  · rfl

theorem RtHalf.run_ready (b : RtSel) (p : RtHalf) (r : Rgd) :
    (p.run b r).ready = if p.accepted then (r.raise .rt).ready else r.ready := by
  unfold RtHalf.run
  split <;> rfl

theorem RtHalf.run_holdsChars (b : RtSel) {p : RtHalf} (r : Rgd) (hp : p.index ≤ 62) (h : p.accepted = true) :
    (p.run b r).rt.HoldsChars b p.index p.chars := by
  rw [RtHalf.run, if_pos h]
  exact rtWrite_holdsChars b p.chars r hp

theorem RtHalf.run_of_holdsChars {b : RtSel} {p : RtHalf} {r : Rgd} (hp : p.index ≤ 62)
    (h : p.accepted = true → r.rt.HoldsChars b p.index p.chars) :
    p.run b r = if p.accepted then r.raise .rt else r := by
  unfold RtHalf.run
  split
  next haccept => exact rtWrite_of_holdsChars hp (h haccept)
  next => rfl

theorem rtHalves_sel (b : RtSel) (c d : RtHalf) (r : Rgd) : (rtHalves b c d r).rt.sel = b := by
  rw [rtHalves, RtHalf.run_sel, RtHalf.run_sel, rtSelect_rt]

theorem rtHalves_ready (b : RtSel) (c d : RtHalf) (r : Rgd) :
    (rtHalves b c d r).ready = (if c.accepted || d.accepted then r.raise .rt else r).ready := by
  simp only [rtHalves, RtHalf.run_ready, Rgd.raise_ready, rtSelect_ready]
  cases c.accepted <;> cases d.accepted <;> simp [Rgd.raise_ready, BitVec.or_assoc]

theorem rtHalves_holdsChars_second (b : RtSel) (c : RtHalf) {d : RtHalf} (r : Rgd) (hd : d.index ≤ 62)
    (h : d.accepted = true) : (rtHalves b c d r).rt.HoldsChars b d.index d.chars :=
  d.run_holdsChars b _ hd h

/-- The second half, at later indices, leaves the characters of the first. -/
theorem rtHalves_holdsChars_first (b : RtSel) {c d : RtHalf} (r : Rgd) (hc : c.index ≤ 62) (hd : d.index ≤ 62)
    (hapart : c.index + 2 ≤ d.index) (h : c.accepted = true) :
    (rtHalves b c d r).rt.HoldsChars b c.index c.chars := by
  have hrun := c.run_holdsChars b (rtSelect b r) hc h
  rw [rtHalves, RtHalf.run]
  split
  · exact hrun.rtWrite_after d.chars hapart hd
  · exact hrun

/-- Two halves whose characters stand there already only set RDY_RT (R106). -/
theorem rtHalves_of_holdsChars {b : RtSel} {c d : RtHalf} {r : Rgd} (hsel : r.rt.sel = b)
    (hc : c.index ≤ 62) (hd : d.index ≤ 62)
    (hfirst : c.accepted = true → r.rt.HoldsChars b c.index c.chars)
    (hsecond : d.accepted = true → r.rt.HoldsChars b d.index d.chars) :
    rtHalves b c d r = if c.accepted || d.accepted then r.raise .rt else r := by
  have hselect : rtSelect b r = r := by
    subst hsel
    rfl
  rw [rtHalves, hselect, RtHalf.run_of_holdsChars hc hfirst, RtHalf.run_of_holdsChars hd (by split <;> exact hsecond)]
  cases c.accepted <;> cases d.accepted <;> simp [Rgd.raise_raise]

/-- RT_EXTRACT writes the characters that stand there, and sets RDY_RT again where a half is accepted (R106). -/
theorem rtExtract_repeats (q : Rgd) (v : Word) : Repeats rtExtract q ((rtExtract q).clearReady v) := by
  obtain ⟨b, c, d, hc, hd, hapart, heq⟩ := rtExtract_eq_halves q
  have hq : rtExtract q = rtHalves b c d q := heq q ⟨rfl, rfl, rfl⟩
  have hagain : rtExtract ((rtExtract q).clearReady v) =
      if c.accepted || d.accepted then ((rtExtract q).clearReady v).raise .rt else (rtExtract q).clearReady v := by
    rw [heq _ ⟨by simp, by simp, by simp⟩, hq]
    exact rtHalves_of_holdsChars (rtHalves_sel b c d q) hc hd
      (fun h => rtHalves_holdsChars_first b q hc hd (hapart h) h) (rtHalves_holdsChars_second b c q hd)
  have hfirst := rtHalves_ready b c d q
  rw [← hq] at hfirst
  by_cases haccept : (c.accepted || d.accepted) = true
  · rw [if_pos haccept] at hagain hfirst
    exact .raises .rt (by decide) hagain fun i _ => by rw [hfirst]
  · rw [if_neg haccept] at hagain hfirst
    exact .quiet hagain fun i _ => by rw [hfirst]

/-- CT_EXTRACT changes nothing, or sets both clock fields and RDY_CT; the group and the configuration say which, and
the fields (R112 to R115). -/
theorem ctExtract_eq (r : Rgd) :
    (∀ x, r.SameSetting x → ctExtract x = x) ∨
    ∃ g : CtGroup, ∀ x, r.SameSetting x → ctExtract x = { x with ct := g }.raise .ct := by
  by_cases hpass : accept (errorLevel r.inp .C) r.thrCt = true ∧ accept (errorLevel r.inp .D) r.thrCt = true ∧
      ¬(r.ctMinchk = true ∧ 59 < (minuteField r.inp).toNat)
  · obtain ⟨hc, hd, hmin⟩ := hpass
    refine .inr ⟨⟨BitVec.ofInt 8 (ofsNormalize ((rawHour r.inp).toNat : Int) (offsetField r.inp)),
      (minuteField r.inp).setWidth 8⟩, fun x ⟨hinp, hctrl, hthr⟩ => ?_⟩
    simp only [Rgd.thrCt, Rgd.ctMinchk] at hc hd hmin
    simp only [ctExtract, Rgd.thrCt, Rgd.ctMinchk, hinp, hctrl, hthr, hc, hd, hmin]
    rfl
  · refine .inl fun x ⟨hinp, hctrl, hthr⟩ => ?_
    simp only [Rgd.thrCt, Rgd.ctMinchk] at hpass
    simp only [ctExtract, Rgd.thrCt, Rgd.ctMinchk, hinp, hctrl, hthr]
    split_ifs with hc hd hmin
    · rfl
    · rfl
    · rfl
    · exact absurd ⟨by simpa using hc, by simpa using hd, hmin⟩ hpass

theorem ctExtract_repeats (q : Rgd) (v : Word) : Repeats ctExtract q ((ctExtract q).clearReady v) := by
  have hsame : q.SameSetting ((ctExtract q).clearReady v) := ⟨by simp, by simp, by simp⟩
  rcases ctExtract_eq q with h | ⟨g, h⟩
  · exact .quiet (h _ hsame) fun i _ => by rw [h q ⟨rfl, rfl, rfl⟩]
  · refine .raises .ct (by decide) ?_ fun i _ => ?_
    · rw [h _ hsame, h q ⟨rfl, rfl, rfl⟩]
      rfl
    · rw [h q ⟨rfl, rfl, rfl⟩]
      rfl

/-- The dispatcher, given the same group again (R101, R106, R115). -/
theorem dispatch_repeats (q : Rgd) (v : Word) : Repeats dispatch q ((dispatch q).clearReady v) := by
  have hsame : q.SameSetting ((dispatch q).clearReady v) := ⟨by simp, by simp, by simp⟩
  rcases dispatch_same_route hsame with ⟨hq, hu⟩ | ⟨hq, hu⟩ | ⟨hq, hu⟩ | ⟨hq, hu⟩
  · exact .quiet hu fun i _ => by rw [hq]
  all_goals rw [hq] at hu ⊢
  · exact (psExtract_repeats q v).congr hq hu
  · exact (rtExtract_repeats q v).congr hq hu
  · exact (ctExtract_repeats q v).congr hq hu

theorem classify_of_cls_eq {r : Rgd} (h : r.cls = classWord r.inp) : classify r = r := by rw [classify, ← h]

/-- Given the same group again, nothing before the dispatcher changes anything (R92). -/
theorem beforeDispatch_clearReady_feed (r : Rgd) (v : Word) :
    beforeDispatch ((feed r).clearReady v) = (feed r).clearReady v := by
  have hclassify : classify ((feed r).clearReady v) = (feed r).clearReady v := classify_of_cls_eq (by simp)
  have hpi : ¬((feed r).clearReady v).PiNew :=
    not_piNew_after_piExtract (r := classify r) (feed_inp r) (feed_thr r) (feed_pi r)
  have hpty : ¬((feed r).clearReady v).PtyNew := by
    apply not_ptyNew_after_ptyStage (r := piExtract (classify r)) <;> simp
  rw [beforeDispatch, hclassify, piExtract_of_not_piNew hpi, ptyStage_of_not_ptyNew hpty]

/-- A FEED of the same group again (R92, R101, R106, R115): the dispatcher repeats, and RDY_RT and RDY_CT are its
own. -/
theorem feed_repeats (r : Rgd) (v : Word) : Repeats feed r ((feed r).clearReady v) := by
  have hsecond : feed ((feed r).clearReady v) = dispatch ((feed r).clearReady v) := by
    rw [feed_eq, beforeDispatch_clearReady_feed]
  have hbefore : ∀ i, 3 ≤ i → (beforeDispatch r).ready.getLsbD i = r.ready.getLsbD i :=
    fun i hi => beforeDispatch_ready_other r i (by omega) (by omega)
  rcases dispatch_repeats (beforeDispatch r) v with ⟨again, first⟩ | ⟨b, hb, again, first⟩
  · exact .quiet (hsecond.trans again) fun i hi => (first i hi).trans (hbefore i hi)
  · refine .raises b hb (hsecond.trans again) fun i hi => (first i hi).trans ?_
    rw [raise_getLsbD, raise_getLsbD, hbefore i hi]

/-! The obligations. -/

/-- Settles O33, by whether the candidate is new. -/
theorem feedExtractsIdentification : Obligations.FeedExtractsIdentification := by
  unfold Obligations.FeedExtractsIdentification
  intro s
  refine ⟨s.onRgd feed, rfl, fun cand lvl hcase => ?_⟩
  have hcand : (piCandidate s.rgd.inp).1 = cand ∧ (piCandidate s.rgd.inp).2.toNat = lvl := by
    rw [piCandidate_eq_ite]
    rcases hcase with ⟨hC, rfl, rfl⟩ | ⟨hA, rfl, rfl⟩
    · rw [if_pos hC]
      exact ⟨rfl, errorLevel_toNat _ _⟩
    · rw [if_neg hA]
      exact ⟨rfl, errorLevel_toNat _ _⟩
  obtain ⟨hblock, hlevel⟩ := hcand
  rw [← piNew_iff hblock hlevel, ← hblock]
  refine ⟨fun hnew => ?_, feed_of_not_piNew⟩
  obtain ⟨hpi, hready⟩ := feed_of_piNew hnew
  rw [State.onRgd_rgd, hpi]
  exact ⟨rfl, rfl, rfl, hready⟩

/-- Settles O34: a PI group that changes takes the candidate, which is block C only under version B at a lower level;
under version A the candidate and its level are block A's. -/
theorem blockCIdentifiesOnlyUnderVersionB : Obligations.BlockCIdentifiesOnlyUnderVersionB := by
  unfold Obligations.BlockCIdentifiesOnlyUnderVersionB
  constructor
  · intro s t hfeed hchanged hnotA
    cases hfeed
    have hnew : s.rgd.PiNew := by
      by_contra hold
      exact hchanged (feed_of_not_piNew hold).1
    rw [State.onRgd_rgd, (feed_of_piNew hnew).1] at hnotA ⊢
    have hcand := piCandidate_eq_ite s.rgd.inp
    by_cases hC : s.rgd.inp.piFromC
    · rw [if_pos hC] at hcand
      have haccept := hnew.1
      rw [hcand, accept_iff, errorLevel_toNat, thrPi_toNat] at haccept
      exact ⟨by rw [hcand], hC.1, hC.2, haccept⟩
    · rw [if_neg hC] at hcand
      exact absurd (by rw [hcand]) hnotA
  · intro s c e hversion hlevel
    refine ⟨s.onRgd feed, _, rfl, rfl, ?_⟩
    have hcand : piCandidate { s.rgd.inp with blkC := c, err := e } = piCandidate s.rgd.inp := by
      rw [piCandidate_eq_ite, piCandidate_eq_ite, if_neg fun h => hversion h.1, if_neg fun h => hversion h.1]
      refine Prod.ext rfl (BitVec.eq_of_toNat_eq ?_)
      rw [errorLevel_toNat, errorLevel_toNat]
      exact hlevel
    rw [State.onRgd_rgd, State.onRgd_rgd, feed_pi, feed_pi]
    exact piExtract_pi_congr hcand rfl rfl

/-- Settles O35, by whether the code is new. -/
theorem feedExtractsProgramType : Obligations.FeedExtractsProgramType := by
  unfold Obligations.FeedExtractsProgramType
  intro s
  refine ⟨s.onRgd feed, rfl, ?_⟩
  rw [← ptyNew_iff]
  refine ⟨fun hnew => ?_, feed_of_not_ptyNew⟩
  obtain ⟨hpty, hready⟩ := feed_of_ptyNew hnew
  rw [State.onRgd_rgd, hpty]
  exact ⟨ptyCode_toNat _, hready⟩

/-- Settles O44: the second FEED changes nothing, or sets RDY_RT or RDY_CT where the first had set it. -/
theorem repeatedGroupIsQuietExceptTextAndClock : Obligations.RepeatedGroupIsQuietExceptTextAndClock := by
  unfold Obligations.RepeatedGroupIsQuietExceptTextAndClock
  intro s v
  refine ⟨s.onRgd feed, (s.onRgd feed).onRgd (Rgd.clearReady v), ((s.onRgd feed).onRgd (Rgd.clearReady v)).onRgd feed,
    rfl, rfl, rfl, ?_⟩
  simp only [State.onRgd_rgd]
  cases feed_repeats s.rgd v with
  | quiet again first =>
    rw [again]
    refine ⟨rfl, rfl, rfl, rfl, rfl, rfl, fun _ _ => rfl, fun i hi hclear => ?_⟩
    rw [clearReady_getLsbD _ _ _ (by omega), first i (by omega), hclear, Bool.false_and]
  | raises b htext again first =>
    rw [again]
    refine ⟨rfl, rfl, rfl, rfl, rfl, rfl, fun i hi => ?_, fun i hi hclear => ?_⟩
    · rw [raise_getLsbD, decide_eq_false (by omega), Bool.or_false]
    · rw [raise_getLsbD, clearReady_getLsbD _ _ _ (by omega), first i (by omega), raise_getLsbD, hclear]
      cases decide (i = b.index) <;> simp

end Sys2Proof.Machine
end

section
/-! PROOFS of the family 42_ps_rt.md. First what PS_EXTRACT and the halves of RT_EXTRACT do, in the claims' own reading
(R98 to R106); then that a group neither reads nor writes the text buffer it does not select (R110); and the
obligations. -/

namespace Sys2Proof.Machine

/-! The routing (R123). -/

theorem beforeDispatch_routedAs (r : Rgd) (t : Nat) : (beforeDispatch r).RoutedAs t ↔ r.RoutedAs t := by
  simp only [Rgd.RoutedAs, beforeDispatch_inp, beforeDispatch_ctrl, beforeDispatch_thr]

theorem feed_of_routedAs_zero {r : Rgd} (h : r.RoutedAs 0) : feed r = psExtract (beforeDispatch r) := by
  rw [← beforeDispatch_routedAs] at h
  rcases dispatch_cases (beforeDispatch r) with ⟨hno, -⟩ | ⟨-, heq⟩ | ⟨hroute, -⟩ | ⟨hroute, -⟩
  · exact absurd h hno
  · exact heq
  · exact absurd (routedAs_unique h hroute) (by decide)
  · exact absurd (routedAs_unique h hroute) (by decide)

theorem feed_of_routedAs_two {r : Rgd} (h : r.RoutedAs 2) : feed r = rtExtract (beforeDispatch r) := by
  rw [← beforeDispatch_routedAs] at h
  rcases dispatch_cases (beforeDispatch r) with ⟨-, hno, -⟩ | ⟨hroute, -⟩ | ⟨-, heq⟩ | ⟨hroute, -⟩
  · exact absurd h hno
  · exact absurd (routedAs_unique h hroute) (by decide)
  · exact heq
  · exact absurd (routedAs_unique h hroute) (by decide)

/-! The station name (R98 to R100). -/

theorem psSegment_toNat (g : Inputs) : (psSegment g).toNat = g.blkB.toNat % 4 := by
  rw [psSegment, extractLsb'_toNat', pow_zero, Nat.div_one]
  rfl

theorem accept_thrPs_iff (r : Rgd) (k : Block) : accept (errorLevel r.inp k) r.thrPs = true ↔ r.Accepts k 4 := by
  rw [accept_iff, errorLevel_toNat, Rgd.thrPs, extractLsb'_toNat']
  rfl

/-- PS_BUF after PS_EXTRACT: an accepted block D puts its characters at its segment (R98, R99). -/
theorem byteAt_psExtract_buf (r : Rgd) (i : Nat) :
    byteAt (psExtract r).ps.buf i =
      if r.Accepts .D 4 ∧ i = 2 * (r.inp.blkB.toNat % 4) then highByte r.inp.blkD
      else if r.Accepts .D 4 ∧ i = 2 * (r.inp.blkB.toNat % 4) + 1 then lowByte r.inp.blkD
      else byteAt r.ps.buf i := by
  rw [psExtract, psDiff_buf, psWrite]
  by_cases haccept : r.Accepts .D 4
  · rw [if_pos ((accept_thrPs_iff r .D).mpr haccept), psSegment_toNat, byteAt_writeChars _ _ _ _ (by omega),
      charHigh_eq, charLow_eq]
    simp only [haccept, true_and]
  · rw [if_neg (haccept ∘ (accept_thrPs_iff r .D).mp)]
    simp only [haccept, false_and, if_false]

/-- The change test of PS_EXTRACT, on the characters it leaves and the shadow it found (R100). -/
theorem psWrite_chars_eq_shadow_iff (r : Rgd) :
    (psWrite r).ps.chars = (psWrite r).ps.shadow ↔
      ∀ i, i < 8 → byteAt (psExtract r).ps.buf i = byteAt r.ps.shadow i := by
  rw [chars_eq_shadow_iff, psWrite_shadow, psExtract, psDiff_buf]

theorem psExtract_of_changed {r : Rgd} (h : ∃ i, i < 8 ∧ byteAt (psExtract r).ps.buf i ≠ byteAt r.ps.shadow i) :
    (psExtract r).ready.getLsbD 2 = true ∧ (psExtract r).ps.avail = true := by
  have hchanged : (psWrite r).ps.chars ≠ (psWrite r).ps.shadow := by
    obtain ⟨i, hi, hne⟩ := h
    exact fun heq => hne ((psWrite_chars_eq_shadow_iff r).mp heq i hi)
  rw [psExtract, psDiff, if_pos hchanged, raise_getLsbD]
  exact ⟨Bool.or_true _, rfl⟩

theorem psExtract_of_unchanged {r : Rgd} (h : ∀ i, i < 8 → byteAt (psExtract r).ps.buf i = byteAt r.ps.shadow i) :
    psExtract r = psWrite r := by
  rw [psExtract, psDiff, if_neg (not_not_intro ((psWrite_chars_eq_shadow_iff r).mpr h))]

/-! The radio text (R102 to R108). -/

theorem rtSegment_toNat (g : Inputs) : (rtSegment g).toNat = g.blkB.toNat % 16 := by
  rw [rtSegment, extractLsb'_toNat', pow_zero, Nat.div_one]
  rfl

theorem accept_thrRt_eq_decide (r : Rgd) (k : Block) :
    accept (errorLevel r.inp k) r.thrRt = decide (r.Accepts k 6) := by
  rw [Bool.eq_iff_iff, decide_eq_true_iff, accept_iff, errorLevel_toNat, Rgd.thrRt, extractLsb'_toNat']
  rfl

/-- The half with the characters `w` of block `k` at index `i`, accepted as the claims read THR_RT (R85). -/
def Rgd.textHalf (r : Rgd) (k : Block) (i : Nat) (w : Half) : RtHalf where
  accepted := decide (r.Accepts k 6)
  index := i
  chars := w

/-- R103 and R104. -/
theorem rtExtract_of_versionA {r : Rgd} (h : ¬r.inp.IsVersionB) :
    rtExtract r =
      rtHalves r.inp.selector (r.textHalf .C (4 * (r.inp.blkB.toNat % 16)) r.inp.blkC)
        (r.textHalf .D (4 * (r.inp.blkB.toNat % 16) + 2) r.inp.blkD) r := by
  simp only [rtExtract, (protocolVersion_eq_A _).mpr h, rtHalfDA, rtHalfCA_inp, Rgd.thrRt, rtHalfCA_thr]
  simp only [rtHalfCA, rtSelect_inp, rtSelect_thr, rtSelector_eq, rtSegment_toNat, rtHalves, RtHalf.run, Rgd.textHalf,
    ← accept_thrRt_eq_decide, Rgd.thrRt]

/-- R105. -/
theorem rtExtract_of_versionB {r : Rgd} (h : r.inp.IsVersionB) :
    rtExtract r =
      (r.textHalf .D (2 * (r.inp.blkB.toNat % 16)) r.inp.blkD).run r.inp.selector (rtSelect r.inp.selector r) := by
  simp only [rtExtract, (protocolVersion_eq_B _).mpr h, rtHalfDB, rtSelect_inp, Rgd.thrRt, rtSelect_thr,
    rtSelector_eq, rtSegment_toNat, RtHalf.run, Rgd.textHalf, ← accept_thrRt_eq_decide]

/-- What stands before the dispatcher leaves the group and THR, and so the halves. -/
theorem beforeDispatch_textHalf (r : Rgd) (k : Block) (i : Nat) (w : Half) :
    (beforeDispatch r).textHalf k i w = r.textHalf k i w := by
  simp only [Rgd.textHalf, Rgd.Accepts, beforeDispatch_inp, beforeDispatch_thr]

theorem feed_of_versionA {r : Rgd} (hroute : r.RoutedAs 2) (hversion : ¬r.inp.IsVersionB) :
    feed r =
      rtHalves r.inp.selector (r.textHalf .C (4 * (r.inp.blkB.toNat % 16)) r.inp.blkC)
        (r.textHalf .D (4 * (r.inp.blkB.toNat % 16) + 2) r.inp.blkD) (beforeDispatch r) := by
  rw [feed_of_routedAs_two hroute, rtExtract_of_versionA (by rwa [beforeDispatch_inp]), beforeDispatch_inp,
    beforeDispatch_textHalf, beforeDispatch_textHalf]

theorem feed_of_versionB {r : Rgd} (hroute : r.RoutedAs 2) (hversion : r.inp.IsVersionB) :
    feed r =
      (r.textHalf .D (2 * (r.inp.blkB.toNat % 16)) r.inp.blkD).run r.inp.selector
        (rtSelect r.inp.selector (beforeDispatch r)) := by
  rw [feed_of_routedAs_two hroute, rtExtract_of_versionB (by rwa [beforeDispatch_inp]), beforeDispatch_inp,
    beforeDispatch_textHalf]

section
variable (r q : Rgd) (k : Block) (b : RtSel) {i : Nat} (w : Half)

theorem Rgd.textHalf_run : (r.textHalf k i w).run b q = if r.Accepts k 6 then rtWrite b i w q else q := by
  simp only [RtHalf.run, Rgd.textHalf, decide_eq_true_eq]

theorem byteAt_textHalf_run (hi : i ≤ 62) (j : Nat) :
    byteAt (((r.textHalf k i w).run b q).rt.buf b) j =
      if r.Accepts k 6 ∧ j = i then highByte w
      else if r.Accepts k 6 ∧ j = i + 1 then lowByte w
      else byteAt (q.rt.buf b) j := by
  rw [Rgd.textHalf_run]
  by_cases haccept : r.Accepts k 6
  · rw [if_pos haccept, rtWrite_rt, RtGroup.setHalf_buf_self, byteAt_writeChars _ _ _ _ (by omega), charHigh_eq,
      charLow_eq]
    simp only [haccept, true_and]
  · simp only [haccept, false_and, if_false]

theorem hwm_textHalf_run (hi : i ≤ 62) :
    (((r.textHalf k i w).run b q).rt.hwm b).toInt =
      if r.Accepts k 6 then max (q.rt.hwm b).toInt ((i + 2 : Nat) : Int) else (q.rt.hwm b).toInt := by
  rw [Rgd.textHalf_run]
  split
  · rw [rtWrite_rt, RtGroup.setHalf_hwm_self, markRaise_toInt _ _ (by omega)]
  · rfl

/-- An accepted half sets RDY_RT, with no compare (R106). -/
theorem ready_textHalf_run :
    ((r.textHalf k i w).run b q).ready.getLsbD 3 = true ↔ r.Accepts k 6 ∨ q.ready.getLsbD 3 = true := by
  rw [Rgd.textHalf_run]
  split
  next haccept => simp only [rtWrite_getLsbD, decide_true, Bool.or_true, haccept, true_or]
  next hreject => simp only [hreject, false_or]

end

/-! The buffer that a group does not select (R110). -/

/-- The RGD with other contents of one RT buffer and its mark. -/
def Rgd.withHalf (c : RtSel) (buf : Vector Byte 65) (m : BitVec 8) (r : Rgd) : Rgd :=
  { r with rt := r.rt.setHalf c buf m }

section
variable (c : RtSel) (buf : Vector Byte 65) (m : BitVec 8) (r : Rgd)

theorem Rgd.withHalf_self : r.withHalf c (r.rt.buf c) (r.rt.hwm c) = r := by
  rw [Rgd.withHalf, RtGroup.setHalf_self]

theorem Rgd.sameSetting_withHalf : r.SameSetting (r.withHalf c buf m) := ⟨rfl, rfl, rfl⟩

/-! PI, PTY, PS and CT neither read nor write the RT group (R88, R95, R98, R112). -/

theorem beforeDispatch_withHalf : beforeDispatch (r.withHalf c buf m) = (beforeDispatch r).withHalf c buf m := by
  have hpi : piExtract (classify (r.withHalf c buf m)) = (piExtract (classify r)).withHalf c buf m := by
    simp only [piExtract, piUpdate, apply_ite (Rgd.withHalf c buf m)]
    rfl
  simp only [beforeDispatch, hpi, ptyStage, ptyExtract, apply_ite (Rgd.withHalf c buf m)]
  rfl

theorem psExtract_withHalf : psExtract (r.withHalf c buf m) = (psExtract r).withHalf c buf m := by
  have hwrite : psWrite (r.withHalf c buf m) = (psWrite r).withHalf c buf m := by
    simp only [psWrite, apply_ite (Rgd.withHalf c buf m)]
    rfl
  simp only [psExtract, hwrite, psDiff, apply_ite (Rgd.withHalf c buf m)]
  rfl

theorem ctExtract_withHalf : ctExtract (r.withHalf c buf m) = (ctExtract r).withHalf c buf m := by
  simp only [ctExtract, apply_ite (Rgd.withHalf c buf m)]
  rfl

/-! RT_EXTRACT reads and writes the selected buffer alone. -/

theorem rtSelect_withHalf (b : RtSel) : rtSelect b (r.withHalf c buf m) = (rtSelect b r).withHalf c buf m := by
  cases c <;> rfl

theorem RtHalf.run_withHalf_other (b : RtSel) (p : RtHalf) :
    p.run b (r.withHalf b.other buf m) = (p.run b r).withHalf b.other buf m := by
  unfold RtHalf.run
  split
  · cases b <;> rfl
  · rfl

theorem rtExtract_sel : (rtExtract r).rt.sel = r.inp.selector := by
  by_cases hversion : r.inp.IsVersionB
  · rw [rtExtract_of_versionB hversion, RtHalf.run_sel, rtSelect_rt]
  · rw [rtExtract_of_versionA hversion, rtHalves_sel]

theorem rtExtract_withHalf_other :
    rtExtract (r.withHalf r.inp.selector.other buf m) = (rtExtract r).withHalf r.inp.selector.other buf m := by
  obtain ⟨b, p, d, -, -, -, hhalves⟩ := rtExtract_eq_halves r
  have hb : r.inp.selector = b := by rw [← rtExtract_sel, hhalves r ⟨rfl, rfl, rfl⟩, rtHalves_sel]
  rw [hhalves r ⟨rfl, rfl, rfl⟩, hhalves _ (r.sameSetting_withHalf _ buf m), hb, rtHalves, rtSelect_withHalf,
    RtHalf.run_withHalf_other, RtHalf.run_withHalf_other, rtHalves]

theorem dispatch_withHalf_other :
    dispatch (r.withHalf r.inp.selector.other buf m) = (dispatch r).withHalf r.inp.selector.other buf m := by
  rcases dispatch_same_route (r.sameSetting_withHalf r.inp.selector.other buf m) with
    ⟨h, h'⟩ | ⟨h, h'⟩ | ⟨h, h'⟩ | ⟨h, h'⟩ <;> rw [h, h']
  · exact psExtract_withHalf _ buf m r
  · exact rtExtract_withHalf_other buf m r
  · exact ctExtract_withHalf _ buf m r

theorem feed_withHalf_other :
    feed (r.withHalf r.inp.selector.other buf m) = (feed r).withHalf r.inp.selector.other buf m := by
  have hdispatch := dispatch_withHalf_other buf m (beforeDispatch r)
  rw [beforeDispatch_inp] at hdispatch
  rw [feed_eq, beforeDispatch_withHalf, hdispatch, feed_eq]

/-- FEED leaves the other buffer and its mark: giving them the contents they have changes nothing before it, and so
nothing after it. -/
theorem feed_rt_other :
    (feed r).rt.buf r.inp.selector.other = r.rt.buf r.inp.selector.other ∧
      (feed r).rt.hwm r.inp.selector.other = r.rt.hwm r.inp.selector.other := by
  have hsame := feed_withHalf_other (r.rt.buf r.inp.selector.other) (r.rt.hwm r.inp.selector.other) r
  rw [Rgd.withHalf_self] at hsame
  rw [hsame]
  exact ⟨RtGroup.setHalf_buf_self _ _ _ _, RtGroup.setHalf_hwm_self _ _ _ _⟩

end

/-! The obligations. -/

/-- Settles O36: the character write, then the change test on what it leaves. -/
theorem feedExtractsStationName : Obligations.FeedExtractsStationName := by
  unfold Obligations.FeedExtractsStationName
  intro s hroute
  refine ⟨s.onRgd feed, rfl, ?_⟩
  rw [State.onRgd_rgd, feed_of_routedAs_zero hroute, ← beforeDispatch_inp s.rgd, ← beforeDispatch_thr s.rgd,
    ← beforeDispatch_ps s.rgd, ← beforeDispatch_ready_other s.rgd 2 (by decide) (by decide)]
  refine ⟨fun i _ => byteAt_psExtract_buf _ i, fun hchanged => ?_, fun hsame => ?_⟩
  · obtain ⟨hready, havail⟩ := psExtract_of_changed hchanged
    exact ⟨hready, havail, psExtract_psShadowed _⟩
  · rw [psExtract_of_unchanged hsame, psWrite_ready, psWrite_avail, psWrite_shadow]
    exact ⟨rfl, rfl, rfl⟩

/-- Settles O37: the characters of block D lie past those of block C, and so does the end offset that they raise the
mark to. -/
theorem feedExtractsRadioTextVersionA : Obligations.FeedExtractsRadioTextVersionA := by
  unfold Obligations.FeedExtractsRadioTextVersionA
  rintro s seg hroute hversion rfl
  obtain ⟨hbuf, hhwm⟩ := feed_rt_other s.rgd
  refine ⟨s.onRgd feed, rfl, ?_, fun i _ => ?_, ?_, ?_, hbuf, hhwm⟩ <;>
    rw [State.onRgd_rgd, feed_of_versionA hroute hversion, rtHalves]
  · rw [RtHalf.run_sel, RtHalf.run_sel, rtSelect_rt]
  · rw [byteAt_textHalf_run _ _ _ _ _ (by omega), byteAt_textHalf_run _ _ _ _ _ (by omega), rtSelect_rt,
      RtGroup.sel_buf, beforeDispatch_rt]
    rcases Nat.lt_or_ge i (4 * (s.rgd.inp.blkB.toNat % 16) + 2) with hlt | hge
    · have hhigh : i ≠ 4 * (s.rgd.inp.blkB.toNat % 16) + 2 := by omega
      have hlow : i ≠ 4 * (s.rgd.inp.blkB.toNat % 16) + 3 := by omega
      simp only [hhigh, hlow, and_false, if_false]
    · have hhigh : i ≠ 4 * (s.rgd.inp.blkB.toNat % 16) := by omega
      have hlow : i ≠ 4 * (s.rgd.inp.blkB.toNat % 16) + 1 := by omega
      simp only [hhigh, hlow, and_false, if_false]
  · rw [hwm_textHalf_run _ _ _ _ _ (by omega), hwm_textHalf_run _ _ _ _ _ (by omega), rtSelect_rt,
      RtGroup.sel_hwm, beforeDispatch_rt]
    split_ifs <;> omega
  · rw [ready_textHalf_run, ready_textHalf_run, rtSelect_ready,
      beforeDispatch_ready_other _ 3 (by decide) (by decide), or_left_comm]

/-- Settles O38: the half of block D alone. -/
theorem feedExtractsRadioTextVersionB : Obligations.FeedExtractsRadioTextVersionB := by
  unfold Obligations.FeedExtractsRadioTextVersionB
  rintro s seg hroute hversion rfl
  obtain ⟨hbuf, hhwm⟩ := feed_rt_other s.rgd
  refine ⟨s.onRgd feed, rfl, ?_, fun i _ => ?_, ?_, ?_, hbuf, hhwm⟩ <;>
    rw [State.onRgd_rgd, feed_of_versionB hroute hversion]
  · rw [RtHalf.run_sel, rtSelect_rt]
  · rw [byteAt_textHalf_run _ _ _ _ _ (by omega), rtSelect_rt, RtGroup.sel_buf, beforeDispatch_rt]
  · rw [hwm_textHalf_run _ _ _ _ _ (by omega), rtSelect_rt, RtGroup.sel_hwm, beforeDispatch_rt]
    rfl
  · rw [ready_textHalf_run, rtSelect_ready, beforeDispatch_ready_other _ 3 (by decide) (by decide)]

/-- Settles O43: FEED commutes with a change of the other buffer and its mark. -/
theorem radioTextBuffersAreIndependent : Obligations.RadioTextBuffersAreIndependent := by
  unfold Obligations.RadioTextBuffersAreIndependent
  intro s b m swap
  obtain ⟨hbuf, hhwm⟩ := feed_rt_other s.rgd
  exact ⟨s.onRgd feed, rfl, hbuf, hhwm,
    congrArg (Host.Outcome.next ∘ (State.mk · s.host)) (feed_withHalf_other b m s.rgd)⟩

end Sys2Proof.Machine
end

section
/-! PROOFS of the family 43_clock.md. First that each loop of the offset unit, given enough turns, takes the remainder
(R118, R119); then the fields of a clock group as numbers (R70, R116, R117), when CT_EXTRACT accepts the group and what
it then does (R111 to R115); and the obligations. -/

namespace Sys2Proof.Machine

/-! The offset unit (R118, R119). -/

/-- With enough turns the first loop alone brings a negative sum to its remainder. -/
theorem addDays_eq_emod {n : Nat} {h : Int} (hneg : h < 0) (hlow : -24 * (n : Int) ≤ h) : addDays n h = h % 24 := by
  have hmod := addDays_emod n h
  have hnonneg := addDays_nonneg n h hlow
  have hcases := addDays_cases n h
  omega

/-- With enough turns the second loop alone brings a sum of 0 or more to its remainder. -/
theorem subDays_eq_emod {n : Nat} {h : Int} (hnonneg : 0 ≤ h) (hhigh : h ≤ 23 + 24 * (n : Int)) :
    subDays n h = h % 24 := by
  have hmod := subDays_emod n h
  have hlow := subDays_nonneg n h hnonneg
  have hle := subDays_le n h hhigh
  omega

/-- With enough turns of each, the two loops bring any sum to its remainder. -/
theorem subDays_addDays_eq_emod {m n : Nat} {h : Int} (hlow : -24 * (n : Int) ≤ h) (hhigh : h ≤ 23 + 24 * (m : Int)) :
    subDays m (addDays n h) = h % 24 := by
  have hle : addDays n h ≤ 23 + 24 * (m : Int) := by
    rcases addDays_cases n h with ⟨-, heq⟩ | ⟨-, hday⟩ <;> omega
  rw [subDays_eq_emod (addDays_nonneg n h hlow) hle, addDays_emod]

/-- The model's bounds on the turns are enough for every sum (log 11). -/
theorem ofsNormalize_eq_emod (r o : Int) : ofsNormalize r o = (r + o) % 24 := by
  have hnonneg : 0 ≤ addDays (r + o).natAbs (r + o) := addDays_nonneg _ _ (by omega)
  rw [ofsNormalize, subDays_eq_emod hnonneg (by omega), addDays_emod]

/-! The fields of a clock group as numbers (R70, R116, R117). -/

theorem rawHour_toNat (g : Inputs) : ((rawHour g).toNat : Int) = g.hourNumber := by
  have hd := g.blkD.isLt
  rw [rawHour, toNat_append_eq_mul_add, extractLsb'_toNat', extractLsb'_toNat', Inputs.hourNumber]
  omega

theorem minuteField_toNat (g : Inputs) : (minuteField g).toNat = g.minuteNumber := extractLsb'_toNat' g.blkD 6 6

theorem offsetField_eq (g : Inputs) : offsetField g = g.offsetNumber := by
  have hmagnitude : (g.blkD.extractLsb' 0 5).toNat = g.blkD.toNat % 32 := by
    rw [extractLsb'_toNat', pow_zero, Nat.div_one]
    rfl
  rw [offsetField, hmagnitude]
  exact if_congr (getLsbD_iff_toNat g.blkD 5) rfl rfl

/-! The clock extractor (R111 to R115). -/

theorem accept_thrCt_iff (r : Rgd) (k : Block) : accept (errorLevel r.inp k) r.thrCt = true ↔ r.Accepts k 8 := by
  rw [accept_iff, errorLevel_toNat, Rgd.thrCt, extractLsb'_toNat']
  rfl

/-- Blocks C and D are both accepted, and the minute passes the check where CTRL.CT_MINCHK asks for it (R113, R114). -/
def Rgd.ClockAccepted (r : Rgd) : Prop :=
  r.Accepts .C 8 ∧ r.Accepts .D 8 ∧ ¬(r.ctrl.getLsbD 18 = true ∧ 59 < r.inp.minuteNumber)

/-- What stands before the dispatcher leaves the group, CTRL and THR, and so whether the clock is accepted. -/
theorem beforeDispatch_clockAccepted (r : Rgd) : (beforeDispatch r).ClockAccepted ↔ r.ClockAccepted := by
  simp only [Rgd.ClockAccepted, Rgd.Accepts, beforeDispatch_inp, beforeDispatch_ctrl, beforeDispatch_thr]

theorem ctExtract_of_clockAccepted {r : Rgd} (h : r.ClockAccepted) :
    ctExtract r =
      { r with
        ct :=
          { hour := BitVec.ofInt 8 (ofsNormalize ((rawHour r.inp).toNat : Int) (offsetField r.inp))
            min := (minuteField r.inp).setWidth 8 } }.raise .ct := by
  obtain ⟨hC, hD, hmin⟩ := h
  rw [← accept_thrCt_iff] at hC hD
  rw [← minuteField_toNat] at hmin
  rw [ctExtract, if_neg (by simp [hC]), if_neg (by simp [hD])]
  exact if_neg hmin

theorem ctExtract_of_not_clockAccepted {r : Rgd} (h : ¬r.ClockAccepted) : ctExtract r = r := by
  rw [Rgd.ClockAccepted, ← accept_thrCt_iff, ← accept_thrCt_iff, ← minuteField_toNat] at h
  unfold ctExtract
  split_ifs with hC hD hmin
  · rfl
  · rfl
  · rfl
  · exact absurd ⟨Bool.eq_true_of_not_eq_false hC, Bool.eq_true_of_not_eq_false hD, hmin⟩ h

/-- All three results of an accepted clock group (R115). -/
theorem ctExtract_results {r : Rgd} (h : r.ClockAccepted) :
    (ctExtract r).ct.hour.toInt = (r.inp.hourNumber + r.inp.offsetNumber) % 24 ∧
      (ctExtract r).ct.min.toNat = r.inp.minuteNumber ∧ (ctExtract r).ready.getLsbD 4 = true := by
  rw [ctExtract_of_clockAccepted h, raise_getLsbD, Rgd.raise_ct]
  refine ⟨?_, ?_, Bool.or_true _⟩
  · rw [ofsNormalize_toInt, ofsNormalize_eq_emod, rawHour_toNat, offsetField_eq]
  · rw [BitVec.toNat_setWidth_of_le (by decide), minuteField_toNat]

/-! The clock group in a FEED (R123). -/

theorem feed_of_routedAs_four {r : Rgd} (h : r.RoutedAs 4) (hversion : ¬r.inp.IsVersionB) :
    feed r = ctExtract (beforeDispatch r) := by
  rw [← beforeDispatch_routedAs] at h
  rw [← beforeDispatch_inp, ← protocolVersion_eq_A] at hversion
  rcases dispatch_cases (beforeDispatch r) with ⟨-, -, hno, -⟩ | ⟨hroute, -⟩ | ⟨hroute, -⟩ | ⟨-, -, heq⟩
  · exact absurd ⟨h, hversion⟩ hno
  · exact absurd (routedAs_unique h hroute) (by decide)
  · exact absurd (routedAs_unique h hroute) (by decide)
  · exact heq

/-- A group that is no routed version A clock group leaves the clock and RDY_CT. -/
theorem feed_of_not_clockRouted {r : Rgd} (h : ¬(r.RoutedAs 4 ∧ ¬r.inp.IsVersionB)) :
    (feed r).ct = r.ct ∧ (feed r).ready.getLsbD 4 = r.ready.getLsbD 4 := by
  rw [← beforeDispatch_ct r, ← beforeDispatch_ready_other r 4 (by decide) (by decide)]
  rw [← beforeDispatch_routedAs, ← beforeDispatch_inp, ← protocolVersion_eq_A] at h
  rw [feed_eq]
  rcases dispatch_cases (beforeDispatch r) with ⟨-, -, -, heq⟩ | ⟨-, heq⟩ | ⟨-, heq⟩ | ⟨hroute, hversion, -⟩
  · rw [heq]
    exact ⟨rfl, rfl⟩
  · rw [heq]
    exact ⟨psExtract_ct _, psExtract_ready_other _ 4 (by decide)⟩
  · rw [heq]
    exact ⟨rtExtract_ct _, rtExtract_ready_other _ 4 (by decide)⟩
  · exact absurd ⟨hroute, hversion⟩ h

/-! The obligations. -/

/-- Settles O39: an accepted clock group sets both fields and RDY_CT; a group that is not routed to the extractor, or
that the extractor does not accept, leaves all three. -/
theorem feedExtractsClock : Obligations.FeedExtractsClock := by
  unfold Obligations.FeedExtractsClock
  intro s
  refine ⟨s.onRgd feed, rfl, fun ⟨hroute, hversion, haccept⟩ => ?_, fun hno => ?_⟩ <;> rw [State.onRgd_rgd]
  · rw [feed_of_routedAs_four hroute hversion, ← beforeDispatch_inp s.rgd]
    exact ctExtract_results ((beforeDispatch_clockAccepted s.rgd).mpr haccept)
  · by_cases hroute : s.rgd.RoutedAs 4 ∧ ¬s.rgd.inp.IsVersionB
    · obtain ⟨htype, hversion⟩ := hroute
      have hreject : ¬s.rgd.ClockAccepted := fun haccept => hno ⟨htype, hversion, haccept⟩
      rw [feed_of_routedAs_four htype hversion,
        ctExtract_of_not_clockAccepted (hreject ∘ (beforeDispatch_clockAccepted s.rgd).mp)]
      exact ⟨beforeDispatch_ct s.rgd, beforeDispatch_ready_other s.rgd 4 (by decide) (by decide)⟩
    · exact feed_of_not_clockRouted hroute

/-- Settles O42: two turns of each loop cover sums from -48 to 71. -/
theorem offsetUnitIsTheEuclideanRemainder : Obligations.OffsetUnitIsTheEuclideanRemainder := by
  unfold Obligations.OffsetUnitIsTheEuclideanRemainder
  refine ⟨ofsNormalize_eq_emod, fun r o hr hr' ho ho' => ?_⟩
  rw [ofsNormalize_eq_emod]
  refine ⟨?_, fun hneg => ?_, fun hnonneg => ?_⟩
  · exact (subDays_addDays_eq_emod (by omega) (by omega)).symm
  · exact (addDays_eq_emod hneg (by omega)).symm
  · exact (subDays_eq_emod hnonneg (by omega)).symm

end Sys2Proof.Machine
end

section
/-! PROOFS of the family 44_dispatch_commands.md. First that every instruction completes (R135, R136, R140, R141); the
initial record that INIT and SRESET write (R43, R128, R131); CLASS as a number (R36, R121); the routing of a FEED and the
order of its stages (R123 to R125); then the word that a read finds at an offset, from the bytes of the register map
(R48 to R50, R135); and the obligations. -/

namespace Sys2Proof.Machine

/-! Completion (R135, R136, R140, R141). -/

/-- Every term of Instr answers a next state and leaves the pending accesses (log 15). -/
theorem exec_completes (i : Instr) (s : State) : ∃ t, exec i s = .next t ∧ t.host.pending = s.host.pending := by
  cases i with
  | wrCmd v =>
    obtain ⟨f, hf⟩ := runCommand_eq_onRgd (decodeCommand v)
    exact ⟨_, hf s, rfl⟩
  | nop | init | sreset | feed | reserved => exact ⟨_, rfl, rfl⟩
  | rdCmd | rdInStatus | rdInBlkA | rdInBlkB | rdInBlkC | rdInBlkD | rdInErr | rdCtrl | rdThr | rdReady | rdPiStat
  | rdPtyStat | rdPsStat | rdRtStat | rdCtStat | rdClass | rdPsWin | rdRtaWin | rdRtbWin | rdReserved =>
    exact ⟨_, rfl, rfl⟩
  | wrInStatus | wrInBlkA | wrInBlkB | wrInBlkC | wrInBlkD | wrInErr | wrCtrl | wrThr | wrReady | wrPiStat | wrPtyStat
  | wrPsStat | wrRtStat | wrCtStat | wrClass | wrPsWin | wrRtaWin | wrRtbWin | wrReserved => exact ⟨_, rfl, rfl⟩

/-! The initial record (R43). -/

theorem minusOne_toInt : Config.minusOne.toInt = -1 := by decide

/-- A signed byte is -1 only as 0xFF (R33, R34). -/
theorem toInt_eq_neg_one_iff (m : BitVec 8) : m.toInt = -1 ↔ m = Config.minusOne := by
  rw [← minusOne_toInt, BitVec.toInt_inj]

/-- RT_BUF[b] is 64 spaces and a terminator, and its mark is -1 (R43). -/
structure RtGroup.BlankHalf (g : RtGroup) (b : RtSel) : Prop where
  chars : ∀ i, i < 64 → byteAt (g.buf b) i = 0x20#8
  terminator : byteAt (g.buf b) 64 = 0x00#8
  mark : (g.hwm b).toInt = -1

theorem RtGroup.initial_blankHalf (b : RtSel) : RtGroup.initial.BlankHalf b where
  chars i hi := by rw [RtGroup.initial_buf, byteAt_blankBuf, if_pos hi]
  terminator := by rw [RtGroup.initial_buf, byteAt_blankBuf, if_neg (lt_irrefl 64)]
  mark := by rw [RtGroup.initial_hwm, minusOne_toInt]

/-- The station name is 8 spaces and a terminator, its shadow 8 spaces, and it is not available (R43). -/
structure PsGroup.Blank (g : PsGroup) : Prop where
  chars : ∀ i, i < 8 → byteAt g.buf i = 0x20#8
  terminator : byteAt g.buf 8 = 0x00#8
  shadow : ∀ i, i < 8 → byteAt g.shadow i = 0x20#8
  avail : g.avail = false

theorem PsGroup.initial_blank : PsGroup.initial.Blank where
  chars i hi := by rw [byteAt_initial_ps_buf, if_pos hi]
  terminator := by rw [byteAt_initial_ps_buf, if_neg (lt_irrefl 8)]
  shadow i hi := by rw [byteAt_initial_ps_shadow, if_pos hi]
  avail := rfl

/-- Groups at their initial values are the initial record, element by element. -/
theorem initialRecordHolds_of_groups {r : Rgd} (hpi : r.pi = PiGroup.initial) (hpty : r.pty = 0#5)
    (hps : r.ps = PsGroup.initial) (hrt : r.rt = RtGroup.initial) (hct : r.ct = CtGroup.initial)
    (hready : r.ready = 0b000000#6) : r.InitialRecordHolds where
  piCode := by rw [hpi]; rfl
  piShadow := by rw [hpi]; rfl
  piAvail := by rw [hpi]; rfl
  pty := hpty
  psChars := hps ▸ PsGroup.initial_blank.chars
  psTerminator := hps ▸ PsGroup.initial_blank.terminator
  psShadow := hps ▸ PsGroup.initial_blank.shadow
  psAvail := hps ▸ PsGroup.initial_blank.avail
  rtChars b := hrt ▸ (RtGroup.initial_blankHalf b).chars
  rtTerminator b := hrt ▸ (RtGroup.initial_blankHalf b).terminator
  rtMark b := hrt ▸ (RtGroup.initial_blankHalf b).mark
  rtSel := by rw [hrt, RtGroup.initial_sel]
  ctHour := hct ▸ minusOne_toInt
  ctMin := hct ▸ minusOne_toInt
  ready := hready

/-! SRESET (R131, R132). -/

@[simp] theorem sreset_ready (r : Rgd) : (sreset r).ready = 0b000000#6 := rfl

/-- "Partially filled" (R131, D22) in the claims' own reading. -/
theorem rtPartiallyFilled_iff (r : Rgd) : rtPartiallyFilled r = true ↔ ∃ b, (r.rt.hwm b).toInt ≠ -1 := by
  simp only [rtPartiallyFilled, Bool.or_eq_true, bne_iff_ne, ne_eq, toInt_eq_neg_one_iff]
  constructor
  · rintro (hA | hB)
    · exact ⟨.A, hA⟩
    · exact ⟨.B, hB⟩
  · rintro ⟨_ | _, h⟩
    · exact .inl h
    · exact .inr h

/-- `sreset_rt` with its condition: SRESET clears the RT group where some mark is not -1 (R131). -/
theorem sreset_rt_eq_ite (r : Rgd) :
    (sreset r).rt = if rtPartiallyFilled r then RtGroup.initial else r.rt := by
  simp only [sreset, Rgd.initialRDY_rt, sresetPS_rt, sresetRT, apply_ite Rgd.rt]
  rfl

theorem sreset_rt_of_mark {r : Rgd} (h : ∃ b, (r.rt.hwm b).toInt ≠ -1) : (sreset r).rt = RtGroup.initial := by
  rw [sreset_rt_eq_ite, if_pos ((rtPartiallyFilled_iff r).mpr h)]

theorem sreset_rt_of_no_mark {r : Rgd} (h : ∀ b, (r.rt.hwm b).toInt = -1) : (sreset r).rt = r.rt := by
  rw [sreset_rt_eq_ite, if_neg]
  rw [rtPartiallyFilled_iff]
  exact fun ⟨b, hb⟩ => hb (h b)

theorem sreset_of_srPs {r : Rgd} (h : r.ctrl.getLsbD 17 = true) :
    (sreset r).ps = PsGroup.initial ∧ (sreset r).pty = 0#5 := by
  rcases sreset_ps_pty r with ⟨-, hcleared⟩ | ⟨hoff, -⟩
  · exact hcleared
  · exact absurd (hoff.symm.trans h) Bool.false_ne_true

theorem sreset_of_not_srPs {r : Rgd} (h : r.ctrl.getLsbD 17 = false) :
    (sreset r).ps = r.ps ∧ (sreset r).pty = r.pty := by
  rcases sreset_ps_pty r with ⟨hon, -⟩ | ⟨-, hkept⟩
  · exact absurd (h.symm.trans hon) Bool.false_ne_true
  · exact hkept

/-- In a state that meets the invariants a buffer whose mark is -1 is blank (R107, R132). -/
theorem blankHalf_of_mark {r : Rgd} (hinv : r.Inv) {b : RtSel} (hmark : (r.rt.hwm b).toInt = -1) :
    r.rt.BlankHalf b where
  chars i hi := (hinv.marks b).2 i hi (by omega)
  terminator := by
    obtain ⟨-, hA, hB⟩ := hinv.terminated
    cases b with
    | A => exact hA
    | B => exact hB
  mark := hmark

theorem sreset_blankHalf {r : Rgd} (hinv : r.Inv) (b : RtSel) : (sreset r).rt.BlankHalf b := by
  by_cases hmarks : ∀ c, (r.rt.hwm c).toInt = -1
  · rw [sreset_rt_of_no_mark hmarks]
    exact blankHalf_of_mark hinv (hmarks b)
  · rw [sreset_rt_of_mark (not_forall.mp hmarks)]
    exact RtGroup.initial_blankHalf b

/-! CLASS (R36, R121). -/

theorem protocolVersion_bit_toNat (g : Inputs) : (protocolVersion g).bit.toNat = g.status.toNat / 16 % 2 := by
  cases hv : protocolVersion g with
  | A =>
    rw [protocolVersion_eq_A] at hv
    simp only [Version.bit, BitVec.toNat_zero]
    omega
  | B => exact ((protocolVersion_eq_B g).mp hv).symm

theorem classWord_toNat (g : Inputs) :
    (classWord g).toNat =
      g.status.toNat / 16 % 2 + 2 + 16 * (g.blkB.toNat / 4096) + 256 * g.level .A + 1024 * g.level .B +
        4096 * g.level .C + 16384 * g.level .D := by
  simp only [classWord, toNat_append_eq_mul_add, errorLevel_toNat, groupType_toNat, protocolVersion_bit_toNat,
    BitVec.toNat_ofNat]
  omega

/-! The routing (R123, R124). -/

/-- What the dispatcher of a FEED runs, with the routing in terms of the state that the FEED found. -/
theorem feed_routed_cases (r : Rgd) :
    feed r = beforeDispatch r ∨ (r.RoutedAs 0 ∧ feed r = psExtract (beforeDispatch r)) ∨
    (r.RoutedAs 2 ∧ feed r = rtExtract (beforeDispatch r)) ∨
    (r.RoutedAs 4 ∧ feed r = ctExtract (beforeDispatch r)) := by
  simp only [← beforeDispatch_routedAs r, feed_eq]
  rcases dispatch_cases (beforeDispatch r) with ⟨-, -, -, h⟩ | h | h | ⟨hroute, -, h⟩
  · exact .inl h
  · exact .inr (.inl h)
  · exact .inr (.inr (.inl h))
  · exact .inr (.inr (.inr ⟨hroute, h⟩))

theorem feed_of_not_routedAs_zero {r : Rgd} (h : ¬r.RoutedAs 0) :
    (feed r).ps = r.ps ∧ (feed r).ready.getLsbD 2 = r.ready.getLsbD 2 := by
  rw [← beforeDispatch_ps r, ← beforeDispatch_ready_other r 2 (by decide) (by decide)]
  rcases feed_routed_cases r with heq | ⟨hroute, -⟩ | ⟨-, heq⟩ | ⟨-, heq⟩
  · rw [heq]
    exact ⟨rfl, rfl⟩
  · exact absurd hroute h
  · rw [heq]
    exact ⟨rtExtract_ps _, rtExtract_ready_other _ 2 (by decide)⟩
  · rw [heq]
    exact ⟨ctExtract_ps _, ctExtract_ready_other _ 2 (by decide)⟩

theorem feed_of_not_routedAs_two {r : Rgd} (h : ¬r.RoutedAs 2) :
    (feed r).rt = r.rt ∧ (feed r).ready.getLsbD 3 = r.ready.getLsbD 3 := by
  rw [← beforeDispatch_rt r, ← beforeDispatch_ready_other r 3 (by decide) (by decide)]
  rcases feed_routed_cases r with heq | ⟨-, heq⟩ | ⟨hroute, -⟩ | ⟨-, heq⟩
  · rw [heq]
    exact ⟨rfl, rfl⟩
  · rw [heq]
    exact ⟨psExtract_rt _, psExtract_ready_other _ 3 (by decide)⟩
  · exact absurd hroute h
  · rw [heq]
    exact ⟨ctExtract_rt _, ctExtract_ready_other _ 3 (by decide)⟩

theorem feed_of_not_routedAs_four {r : Rgd} (h : ¬r.RoutedAs 4) :
    (feed r).ct = r.ct ∧ (feed r).ready.getLsbD 4 = r.ready.getLsbD 4 :=
  feed_of_not_clockRouted fun hclock => h hclock.1

/-- A FEED that changes the name was routed as type 0, and so as no other type. -/
theorem feed_of_ps_ne {r : Rgd} (h : (feed r).ps ≠ r.ps) : (feed r).rt = r.rt ∧ (feed r).ct = r.ct := by
  have hroute : r.RoutedAs 0 := not_imp_comm.mp (fun hno => (feed_of_not_routedAs_zero hno).1) h
  exact ⟨(feed_of_not_routedAs_two fun h2 => absurd (routedAs_unique hroute h2) (by decide)).1,
    (feed_of_not_routedAs_four fun h4 => absurd (routedAs_unique hroute h4) (by decide)).1⟩

/-- A FEED that changes the text was routed as type 2, and so as no other type. -/
theorem feed_of_rt_ne {r : Rgd} (h : (feed r).rt ≠ r.rt) : (feed r).ps = r.ps ∧ (feed r).ct = r.ct := by
  have hroute : r.RoutedAs 2 := not_imp_comm.mp (fun hno => (feed_of_not_routedAs_two hno).1) h
  exact ⟨(feed_of_not_routedAs_zero fun h0 => absurd (routedAs_unique hroute h0) (by decide)).1,
    (feed_of_not_routedAs_four fun h4 => absurd (routedAs_unique hroute h4) (by decide)).1⟩

/-- CTRL at its reset value has GT_EN[4] at 0, so no clock group is routed (R21, R123). -/
theorem not_routedAs_four_of_reset_ctrl {r : Rgd} (h : r.ctrl = 0x20005#19) : ¬r.RoutedAs 4 := by
  rintro ⟨-, -, hen⟩
  rw [h] at hen
  exact absurd hen (by decide)

/-! The order of a FEED's stages (R125). PI_EXTRACT and the PTY stage write PI, PTY and READY; the dispatcher reads
neither PI nor PTY, and raising ready bits commutes. -/

/-- The RGD with another PI group and another PTY, and with more ready bits. -/
def Rgd.withProgramme (g : PiGroup) (p : BitVec 5) (bits : BitVec 6) (r : Rgd) : Rgd :=
  { r with pi := g, pty := p, ready := r.ready ||| bits }

theorem piExtract_eq_withProgramme {r : Rgd} (h : r.PiNew) :
    piExtract r =
      r.withProgramme { code := (piCandidate r.inp).1, shadow := (piCandidate r.inp).1, avail := true } r.pty
        (1#6 <<< ReadyBit.pi.index) :=
  piExtract_of_piNew h

theorem ptyStage_eq_withProgramme {r : Rgd} (h : r.PtyNew) :
    ptyStage r = r.withProgramme r.pi (ptyCode r.inp) (1#6 <<< ReadyBit.pty.index) :=
  ptyStage_of_ptyNew h

section
variable (g : PiGroup) (p : BitVec 5) (bits : BitVec 6) (r : Rgd)

theorem Rgd.sameSetting_withProgramme : r.SameSetting (r.withProgramme g p bits) := ⟨rfl, rfl, rfl⟩

theorem raise_withProgramme (b : ReadyBit) :
    (r.withProgramme g p bits).raise b = (r.raise b).withProgramme g p bits := by
  simp only [Rgd.raise, Rgd.withProgramme, BitVec.or_assoc, BitVec.or_comm bits]

theorem psExtract_withProgramme :
    psExtract (r.withProgramme g p bits) = (psExtract r).withProgramme g p bits := by
  have hwrite : psWrite (r.withProgramme g p bits) = (psWrite r).withProgramme g p bits := by
    simp only [psWrite, apply_ite (Rgd.withProgramme g p bits)]
    rfl
  simp only [psExtract, hwrite, psDiff, apply_ite (Rgd.withProgramme g p bits), ← raise_withProgramme]
  rfl

theorem RtHalf.run_withProgramme (b : RtSel) (half : RtHalf) :
    half.run b (r.withProgramme g p bits) = (half.run b r).withProgramme g p bits := by
  simp only [RtHalf.run, rtWrite, apply_ite (Rgd.withProgramme g p bits), ← raise_withProgramme]
  rfl

theorem rtExtract_withProgramme :
    rtExtract (r.withProgramme g p bits) = (rtExtract r).withProgramme g p bits := by
  obtain ⟨b, c, d, -, -, -, hhalves⟩ := rtExtract_eq_halves r
  have hselect : rtSelect b (r.withProgramme g p bits) = (rtSelect b r).withProgramme g p bits := rfl
  rw [hhalves r ⟨rfl, rfl, rfl⟩, hhalves _ (r.sameSetting_withProgramme g p bits), rtHalves, hselect,
    RtHalf.run_withProgramme, RtHalf.run_withProgramme, rtHalves]

theorem ctExtract_withProgramme :
    ctExtract (r.withProgramme g p bits) = (ctExtract r).withProgramme g p bits := by
  rcases ctExtract_eq r with h | ⟨clock, h⟩
  · rw [h r ⟨rfl, rfl, rfl⟩, h _ (r.sameSetting_withProgramme g p bits)]
  · rw [h r ⟨rfl, rfl, rfl⟩, h _ (r.sameSetting_withProgramme g p bits), ← raise_withProgramme]
    rfl

theorem dispatch_withProgramme :
    dispatch (r.withProgramme g p bits) = (dispatch r).withProgramme g p bits := by
  rcases dispatch_same_route (r.sameSetting_withProgramme g p bits) with
    ⟨h, h'⟩ | ⟨h, h'⟩ | ⟨h, h'⟩ | ⟨h, h'⟩ <;> rw [h, h']
  · exact psExtract_withProgramme g p bits r
  · exact rtExtract_withProgramme g p bits r
  · exact ctExtract_withProgramme g p bits r

end

theorem dispatch_piExtract (r : Rgd) : dispatch (piExtract r) = piExtract (dispatch r) := by
  have hiff : (dispatch r).PiNew ↔ r.PiNew := by
    simp only [Rgd.PiNew, Rgd.thrPi, dispatch_inp, dispatch_thr, dispatch_pi]
  by_cases h : r.PiNew
  · rw [piExtract_eq_withProgramme h, piExtract_eq_withProgramme (hiff.mpr h), dispatch_withProgramme, dispatch_inp,
      dispatch_pty]
  · rw [piExtract_of_not_piNew h, piExtract_of_not_piNew (h ∘ hiff.mp)]

theorem dispatch_ptyStage (r : Rgd) : dispatch (ptyStage r) = ptyStage (dispatch r) := by
  have hiff : (dispatch r).PtyNew ↔ r.PtyNew := by
    simp only [Rgd.PtyNew, Rgd.ptyEn, dispatch_inp, dispatch_ctrl, dispatch_pty]
  by_cases h : r.PtyNew
  · rw [ptyStage_eq_withProgramme h, ptyStage_eq_withProgramme (hiff.mpr h), dispatch_withProgramme, dispatch_inp,
      dispatch_pi]
  · rw [ptyStage_of_not_ptyNew h, ptyStage_of_not_ptyNew (h ∘ hiff.mp)]

theorem piExtract_ptyStage (r : Rgd) : piExtract (ptyStage r) = ptyStage (piExtract r) := by
  have hpi : (ptyStage r).PiNew ↔ r.PiNew := by
    simp only [Rgd.PiNew, Rgd.thrPi, ptyStage_inp, ptyStage_thr, ptyStage_pi]
  have hpty := ptyNew_piExtract r
  by_cases hnewPi : r.PiNew
  · by_cases hnewPty : r.PtyNew
    · rw [piExtract_eq_withProgramme (hpi.mpr hnewPi), ptyStage_eq_withProgramme (hpty.mpr hnewPty), ptyStage_inp,
        piExtract_inp, piExtract_eq_withProgramme hnewPi, ptyStage_eq_withProgramme hnewPty]
      simp only [Rgd.withProgramme, BitVec.or_assoc, BitVec.or_comm (1#6 <<< ReadyBit.pi.index)]
    · rw [ptyStage_of_not_ptyNew hnewPty, ptyStage_of_not_ptyNew (hnewPty ∘ hpty.mp)]
  · rw [piExtract_of_not_piNew hnewPi, piExtract_of_not_piNew (hnewPi ∘ hpi.mp)]

/-! READY only grows in a FEED (R35, R125). -/

/-- Ready bits that stand are no news to the dispatcher: raising them again before it changes nothing, and so raising
them after it changes nothing. -/
theorem dispatch_ready_or_self (r : Rgd) : (dispatch r).ready ||| r.ready = (dispatch r).ready := by
  have hself : r.withProgramme r.pi r.pty r.ready = r := by rw [Rgd.withProgramme, BitVec.or_self]
  have hcommute := dispatch_withProgramme r.pi r.pty r.ready r
  rw [hself] at hcommute
  exact (congrArg Rgd.ready hcommute).symm

section
variable {r : Rgd} {i : Nat} (h : r.ready.getLsbD i = true)
include h

theorem dispatch_ready_of_ready : (dispatch r).ready.getLsbD i = true := by
  rw [← dispatch_ready_or_self, BitVec.getLsbD_or, h, Bool.or_true]

theorem piExtract_ready_of_ready : (piExtract r).ready.getLsbD i = true := by
  by_cases hnew : r.PiNew
  · rw [piExtract_eq_withProgramme hnew, Rgd.withProgramme, BitVec.getLsbD_or, h, Bool.true_or]
  · rwa [piExtract_of_not_piNew hnew]

theorem ptyStage_ready_of_ready : (ptyStage r).ready.getLsbD i = true := by
  by_cases hnew : r.PtyNew
  · rw [ptyStage_eq_withProgramme hnew, Rgd.withProgramme, BitVec.getLsbD_or, h, Bool.true_or]
  · rwa [ptyStage_of_not_ptyNew hnew]

theorem feed_ready_of_ready : (feed r).ready.getLsbD i = true :=
  dispatch_ready_of_ready (ptyStage_ready_of_ready (piExtract_ready_of_ready (r := classify r) h))

end

/-! Reads of the window (R48 to R50, R135). -/

/-- The word that the register map has at window offset `off`, little-endian (R50). -/
def mapWord (r : Rgd) (off : Nat) : Word :=
  wordOfBytes (windowByte r off) (windowByte r (off + 1)) (windowByte r (off + 2)) (windowByte r (off + 3))

theorem eq_wordOfBytes_iff (w : Word) (b0 b1 b2 b3 : Byte) :
    w = wordOfBytes b0 b1 b2 b3 ↔
      w.toNat = b0.toNat + 0x100 * b1.toNat + 0x10000 * b2.toNat + 0x1000000 * b3.toNat := by
  rw [← BitVec.toNat_inj, wordOfBytes, toNat_append_eq_mul_add, toNat_append_eq_mul_add, toNat_append_eq_mul_add]
  omega

/-- Byte `k` of the map's word stands at offset `off + k`. -/
theorem extractLsb'_mapWord (r : Rgd) (off : Nat) {k : Nat} (hk : k < 4) :
    (mapWord r off).extractLsb' (8 * k) 8 = windowByte r (off + k) := by
  have hword := (eq_wordOfBytes_iff (mapWord r off) _ _ _ _).mp rfl
  apply BitVec.eq_of_toNat_eq
  rw [extractLsb'_toNat', hword]
  have h0 := (windowByte r off).isLt
  have h1 := (windowByte r (off + 1)).isLt
  have h2 := (windowByte r (off + 2)).isLt
  have h3 := (windowByte r (off + 3)).isLt
  match k, hk with
  | 0, _ | 1, _ | 2, _ | 3, _ =>
    simp only [Nat.add_zero, Nat.reduceMul]
    omega

/-! The single registers, by their width. -/

theorem zeroExtend_byte_eq_wordOfBytes {n : Nat} (x : BitVec n) (hn : n ≤ 8 := by decide) :
    x.setWidth 32 = wordOfBytes (x.setWidth 8) 0x00#8 0x00#8 0x00#8 := by
  rw [eq_wordOfBytes_iff, toNat_zeroExtend x (by omega), BitVec.toNat_setWidth_of_le hn]
  rfl

theorem zeroExtend_half_eq_wordOfBytes (x : Half) :
    x.setWidth 32 = wordOfBytes (x.extractLsb' 0 8) (x.extractLsb' 8 8) 0x00#8 0x00#8 := by
  have hx := x.isLt
  rw [eq_wordOfBytes_iff, toNat_zeroExtend x, extractLsb'_toNat', extractLsb'_toNat', BitVec.toNat_zero]
  omega

theorem zeroExtend_ctrl_eq_wordOfBytes (x : BitVec 19) :
    x.setWidth 32 =
      wordOfBytes (x.extractLsb' 0 8) (x.extractLsb' 8 8) ((x.extractLsb' 16 3).setWidth 8) 0x00#8 := by
  have hx := x.isLt
  rw [eq_wordOfBytes_iff, toNat_zeroExtend x, BitVec.toNat_setWidth_of_le (by decide), extractLsb'_toNat',
    extractLsb'_toNat', extractLsb'_toNat', BitVec.toNat_zero]
  omega

theorem zeroExtend_thr_eq_wordOfBytes (x : BitVec 10) :
    x.setWidth 32 = wordOfBytes (x.extractLsb' 0 8) ((x.extractLsb' 8 2).setWidth 8) 0x00#8 0x00#8 := by
  have hx := x.isLt
  rw [eq_wordOfBytes_iff, toNat_zeroExtend x, BitVec.toNat_setWidth_of_le (by decide), extractLsb'_toNat',
    extractLsb'_toNat', BitVec.toNat_zero]
  omega

theorem piStatWord_eq_wordOfBytes (r : Rgd) :
    piStatWord r =
      wordOfBytes (r.pi.code.extractLsb' 0 8) (r.pi.code.extractLsb' 8 8) (if r.pi.avail then 1#8 else 0#8) 0x00#8 := by
  have hcode := r.pi.code.isLt
  rw [eq_wordOfBytes_iff, piStatWord_toNat, extractLsb'_toNat', extractLsb'_toNat', apply_ite BitVec.toNat,
    BitVec.toNat_one (by decide), BitVec.toNat_zero]
  omega

theorem psStatWord_eq_wordOfBytes (r : Rgd) :
    psStatWord r = wordOfBytes (if r.ps.avail then 1#8 else 0#8) 0x00#8 0x00#8 0x00#8 := by
  rw [eq_wordOfBytes_iff, psStatWord_toNat, apply_ite BitVec.toNat]
  rfl

theorem rtStatWord_eq_wordOfBytes (r : Rgd) :
    rtStatWord r = wordOfBytes (if r.rt.sel = .B then 1#8 else 0#8) (r.rt.hwm .A) (r.rt.hwm .B) 0x00#8 := by
  rw [eq_wordOfBytes_iff, rtStatWord_toNat, apply_ite BitVec.toNat]
  rfl

theorem ctStatWord_eq_wordOfBytes (r : Rgd) :
    ctStatWord r = wordOfBytes r.ct.hour r.ct.min 0x00#8 0x00#8 := by
  rw [eq_wordOfBytes_iff, ctStatWord_toNat]
  rfl

/-! The buffer windows and the reserved offsets. -/

/-- Where the map names no single register, its bytes are those of the buffer windows, or 0. -/
theorem windowByte_of_no_register (r : Rgd) {o : Nat}
    (h : o < 0x004 ∨ (0x01C ≤ o ∧ o < 0x020) ∨ 0x042 ≤ o) :
    windowByte r o =
      if 0x080 ≤ o ∧ o ≤ 0x088 then byteAt r.ps.buf (o - 0x080)
      else if 0x100 ≤ o ∧ o ≤ 0x140 then byteAt (r.rt.buf .A) (o - 0x100)
      else if 0x180 ≤ o ∧ o ≤ 0x1C0 then byteAt (r.rt.buf .B) (o - 0x180)
      else 0x00#8 := by
  unfold windowByte
  split
  case h_30 => rfl
  all_goals omega

/-! A window's block of 0x80 offsets is its buffer: past the last byte both are 0x00 (R49). -/

section
variable (r : Rgd) {j : Nat} (hj : j < 0x080)
include hj

theorem windowByte_psWin : windowByte r (0x080 + j) = byteAt r.ps.buf j := by
  have hA : ¬(0x100 ≤ 0x080 + j ∧ 0x080 + j ≤ 0x140) := by omega
  have hB : ¬(0x180 ≤ 0x080 + j ∧ 0x080 + j ≤ 0x1C0) := by omega
  refine Eq.trans ?_ (ite_byteAt_eq_byteAt r.ps.buf rfl j)
  rw [windowByte_of_no_register r (by omega), if_neg hA, if_neg hB, Nat.add_sub_cancel_left]
  exact if_congr (by omega) rfl rfl

theorem windowByte_rtaWin : windowByte r (0x100 + j) = byteAt (r.rt.buf .A) j := by
  have hP : ¬(0x080 ≤ 0x100 + j ∧ 0x100 + j ≤ 0x088) := by omega
  have hB : ¬(0x180 ≤ 0x100 + j ∧ 0x100 + j ≤ 0x1C0) := by omega
  refine Eq.trans ?_ (ite_byteAt_eq_byteAt (r.rt.buf .A) rfl j)
  rw [windowByte_of_no_register r (by omega), if_neg hP, if_neg hB, Nat.add_sub_cancel_left]
  exact if_congr (by omega) rfl rfl

theorem windowByte_rtbWin : windowByte r (0x180 + j) = byteAt (r.rt.buf .B) j := by
  have hP : ¬(0x080 ≤ 0x180 + j ∧ 0x180 + j ≤ 0x088) := by omega
  have hA : ¬(0x100 ≤ 0x180 + j ∧ 0x180 + j ≤ 0x140) := by omega
  refine Eq.trans ?_ (ite_byteAt_eq_byteAt (r.rt.buf .B) rfl j)
  rw [windowByte_of_no_register r (by omega), if_neg hP, if_neg hA, Nat.add_sub_cancel_left]
  exact if_congr (by omega) rfl rfl

end

/-- A buffer window's word is the map's, where the map's bytes from `base` on are the buffer's. -/
theorem windowWord_eq_mapWord {n base last off : Nat} {buf : Vector Byte n} {r : Rgd}
    (hbytes : ∀ {j}, j < 0x080 → windowByte r (base + j) = byteAt buf j) (hlast : last < base + 0x07D)
    (hoff : wordOffsetIn base last off = true) : windowWord buf (off - base) = mapWord r off := by
  rw [wordOffsetIn, decide_eq_true_iff] at hoff
  obtain ⟨j, rfl⟩ := Nat.exists_eq_add_of_le hoff.1
  rw [mapWord, hbytes (by omega), Nat.add_assoc, hbytes (by omega), Nat.add_assoc, hbytes (by omega), Nat.add_assoc,
    hbytes (by omega), Nat.add_sub_cancel_left, windowWord]

theorem windowByte_of_unnamed (r : Rgd) {off k : Nat} (h : off = 0x000 ∨ reservedOffset off = true) (hk : k < 4) :
    windowByte r (off + k) = 0x00#8 := by
  simp only [reservedOffset, wordOffsetIn, Bool.or_eq_true, decide_eq_true_eq] at h
  rw [windowByte_of_no_register r (by omega), if_neg (by omega), if_neg (by omega), if_neg (by omega)]

/-- CMD stores nothing (R57), and a reserved offset reads 0 (R53). -/
theorem mapWord_of_unnamed (r : Rgd) {off : Nat} (h : off = 0x000 ∨ reservedOffset off = true) :
    0x00000000#32 = mapWord r off := by
  have h0 : windowByte r off = 0x00#8 := windowByte_of_unnamed r h (by decide : 0 < 4)
  rw [mapWord, h0, windowByte_of_unnamed r h (by decide), windowByte_of_unnamed r h (by decide),
    windowByte_of_unnamed r h (by decide)]
  rfl

theorem next_answer_congr (s : State) {v w : Word} (h : v = w) : (.next (s.answer v) : Result) = .next (s.answer w) :=
  congrArg (Host.Outcome.next ∘ s.answer) h

/-- A read at a word offset answers the word that the map has there. -/
theorem exec_readInstr_eq_mapWord {off : Nat} {reg : Reg} (halign : off % 4 = 0) (hreg : regAt off = some reg)
    (s : State) : exec (readInstr off reg) s = .next (s.answer (mapWord s.rgd off)) := by
  obtain ⟨hwf, henc⟩ := encode_readInstr_iff.mpr ⟨halign, hreg⟩
  cases reg with
  | cmd => cases henc; exact next_answer_congr s (mapWord_of_unnamed _ (.inl rfl))
  | inStatus | ready | ptyStat => cases henc; exact next_answer_congr s (zeroExtend_byte_eq_wordOfBytes _)
  | inBlkA | inBlkB | inBlkC | inBlkD | inErr | cls =>
    cases henc; exact next_answer_congr s (zeroExtend_half_eq_wordOfBytes _)
  | ctrl => cases henc; exact next_answer_congr s (zeroExtend_ctrl_eq_wordOfBytes _)
  | thr => cases henc; exact next_answer_congr s (zeroExtend_thr_eq_wordOfBytes _)
  | piStat => cases henc; exact next_answer_congr s (piStatWord_eq_wordOfBytes _)
  | psStat => cases henc; exact next_answer_congr s (psStatWord_eq_wordOfBytes _)
  | rtStat => cases henc; exact next_answer_congr s (rtStatWord_eq_wordOfBytes _)
  | ctStat => cases henc; exact next_answer_congr s (ctStatWord_eq_wordOfBytes _)
  | psWin => exact next_answer_congr s (windowWord_eq_mapWord (windowByte_psWin _) (by decide) hwf)
  | rtaWin => exact next_answer_congr s (windowWord_eq_mapWord (windowByte_rtaWin _) (by decide) hwf)
  | rtbWin => exact next_answer_congr s (windowWord_eq_mapWord (windowByte_rtbWin _) (by decide) hwf)
  | reserved => exact next_answer_congr s (mapWord_of_unnamed _ (.inr hwf))

/-! The obligations. -/

/-- Settles O21: the fetch finds the read of the register there, which answers the map's word. -/
theorem readsReturnTheRegisterMap : Obligations.ReadsReturnTheRegisterMap := by
  unfold Obligations.ReadsReturnTheRegisterMap
  intro s off rest hlt halign hp
  obtain ⟨reg, hreg⟩ := regAt_of_word_offset halign hlt
  refine ⟨mapWord s.rgd off, ?_, fun k hk => extractLsb'_mapWord s.rgd off hk⟩
  exact (step_of_fetch hp (fetch_of_regAt halign hreg)).trans (exec_readInstr_eq_mapWord halign hreg _)

/-- Settles O17, group by group. -/
theorem sresetIsSelective : Obligations.SresetIsSelective := by
  unfold Obligations.SresetIsSelective
  intro s
  refine ⟨s.onRgd sreset, rfl, ?_⟩
  rw [State.onRgd_rgd, sreset_pi, sreset_ct]
  refine ⟨rfl, rfl, rfl, minusOne_toInt, minusOne_toInt, sreset_ready _, fun hmark => ?_, sreset_rt_of_no_mark,
    fun hset => ?_, sreset_of_not_srPs, sreset_cls _, sreset_ctrl _, sreset_thr _, sreset_inp _, rfl⟩
  · rw [sreset_rt_of_mark hmark]
    exact ⟨fun b => ⟨(RtGroup.initial_blankHalf b).chars, (RtGroup.initial_blankHalf b).terminator,
      (RtGroup.initial_blankHalf b).mark⟩, RtGroup.initial_sel⟩
  · obtain ⟨hps, hpty⟩ := sreset_of_srPs hset
    obtain ⟨hchars, hterminator, hshadow, havail⟩ := PsGroup.initial_blank
    rw [hps]
    exact ⟨fun i hi => ⟨hchars i hi, hshadow i hi⟩, hterminator, havail, hpty⟩

/-- Settles O18: where SRESET clears no buffer, both marks are -1, and the invariant keeps such a buffer blank. -/
theorem sresetAlwaysLeavesRadioTextBlank : Obligations.SresetAlwaysLeavesRadioTextBlank := by
  unfold Obligations.SresetAlwaysLeavesRadioTextBlank
  intro s hinv
  refine ⟨s.onRgd sreset, rfl, fun b => ?_, fun hmarks => ?_⟩
  · obtain ⟨hchars, hterminator, hmark⟩ := sreset_blankHalf hinv b
    exact ⟨hmark, hchars, hterminator⟩
  · rw [State.onRgd_rgd, sreset_rt_of_no_mark hmarks]

/-- Settles O30: FEED leaves the classification in CLASS, whatever comes after it. -/
theorem feedRecordsTheClassification : Obligations.FeedRecordsTheClassification := by
  unfold Obligations.FeedRecordsTheClassification
  intro s
  refine ⟨s.onRgd feed, rfl, ?_⟩
  rw [State.onRgd_rgd, feed_cls, classWord_toNat]

/-- Settles O40: a group has one type, so a FEED runs at most the extractor of that type. -/
theorem feedRunsAtMostOneRoutedExtractor : Obligations.FeedRunsAtMostOneRoutedExtractor := by
  unfold Obligations.FeedRunsAtMostOneRoutedExtractor
  intro s
  exact ⟨s.onRgd feed, rfl, feed_of_not_routedAs_zero, feed_of_not_routedAs_two, feed_of_not_routedAs_four,
    feed_of_ps_ne, feed_of_rt_ne, fun hreset => (feed_of_not_routedAs_four (not_routedAs_four_of_reset_ctrl hreset)).1⟩

/-- Settles O41: the stages of a FEED write different groups, and each only raises ready bits. -/
theorem extractorOrderDoesNotMatter : Obligations.ExtractorOrderDoesNotMatter := by
  unfold Obligations.ExtractorOrderDoesNotMatter
  refine ⟨fun s => ⟨s.onRgd feed, rfl, fun i => feed_ready_of_ready, feed_ready_five s.rgd⟩, fun r => ?_⟩
  exact ⟨piExtract_ptyStage r, dispatch_ptyStage r, dispatch_piExtract r⟩

/-- Settles O9, by the constructors of Instr; there is no fault to raise (log 13). -/
theorem everyInstructionCompletes : Obligations.EveryInstructionCompletes := by
  unfold Obligations.EveryInstructionCompletes
  exact ⟨exec_completes, nofun⟩

/-- Settles O15: a CMD write runs the command it decodes to, which for 0 is NOP and from 4 on a reserved word. -/
theorem nopAndReservedWordsChangeNothing : Obligations.NopAndReservedWordsChangeNothing := by
  unfold Obligations.NopAndReservedWordsChangeNothing
  refine ⟨fun s => ⟨rfl, rfl⟩, fun w s => rfl, fun w s hw => ?_⟩
  have hdecode : decodeCommand w = .reserved w := decodeCommand_of_reservedCommand (reservedCommand_iff.mpr hw)
  exact congrArg (runCommand · s) hdecode

/-- Settles O16: INIT puts every group at its initial value. -/
theorem initGivesTheInitialRecord : Obligations.InitGivesTheInitialRecord := by
  unfold Obligations.InitGivesTheInitialRecord
  intro s
  refine ⟨s.onRgd init, rfl, ?_, init_cls _, init_ctrl _, init_thr _, init_inp _, rfl⟩
  exact initialRecordHolds_of_groups (init_pi _) (init_pty _) (init_ps _) (init_rt _) (init_ct _) (init_ready _)

/-- Settles O31: no stage of a FEED writes these registers, and FEED answers nothing. -/
theorem feedWritesNoInputAndNoConfiguration : Obligations.FeedWritesNoInputAndNoConfiguration := by
  unfold Obligations.FeedWritesNoInputAndNoConfiguration
  intro s
  exact ⟨s.onRgd feed, rfl, feed_inp _, feed_ctrl _, feed_thr _, rfl⟩

end Sys2Proof.Machine
end

section
/-! PROOFS of the family 70_reset_and_hazards.md. First that hardware reset gives the initial record, which meets the
invariants of the state (R43, R153); then the words that reads find in that record: the status words and the windows of a
blank buffer (R49, R50, R58, R154); and the obligations. -/

namespace Sys2Proof.Machine

/-! Hardware reset (R153). -/

/-- Hardware reset writes every group that INIT writes (R156). -/
theorem reset_initialRecordHolds : Rgd.reset.InitialRecordHolds :=
  initialRecordHolds_of_groups rfl rfl rfl rfl rfl rfl

/-- The initial record with CLASS 0 meets the invariants, whatever the configuration and the inputs. -/
theorem inv_of_initialRecordHolds {r : Rgd} (h : r.InitialRecordHolds) (hcls : r.cls = 0x0000#16) : r.Inv where
  terminated := ⟨h.psTerminator, h.rtTerminator .A, h.rtTerminator .B⟩
  piShadowed := ⟨h.piShadow.trans h.piCode.symm, fun _ => ⟨h.piCode, h.piShadow⟩⟩
  psShadowed i hi := (h.psShadow i hi).trans (h.psChars i hi).symm
  psBlank _ := h.psChars
  clock := ⟨iff_of_true h.ctHour h.ctMin, absurd h.ctHour, absurd h.ctMin⟩
  marks b := ⟨.inl (h.rtMark b), fun i hi _ => h.rtChars b i hi⟩
  readyReserved := by rw [Rgd.ReadyReservedClear, h.ready]; rfl
  classValid := ⟨by rw [hcls]; rfl, by rw [hcls]; rfl, fun _ => hcls⟩

/-! The status words of several fields after hardware reset (R58, R154). -/

theorem reset_piStatWord : piStatWord Rgd.reset = 0x00000000#32 := by decide

theorem reset_rtStatWord : rtStatWord Rgd.reset = 0x00FFFF00#32 := by decide

theorem reset_ctStatWord : ctStatWord Rgd.reset = 0x0000FFFF#32 := by decide

/-! The windows of a buffer of `m` spaces and then zeros (R43, R49, R50). -/

theorem windowWord_of_bytes_eq {n j : Nat} {buf : Vector Byte n} {b : Byte}
    (h : ∀ i, j ≤ i → i < j + 4 → byteAt buf i = b) : windowWord buf j = wordOfBytes b b b b := by
  rw [windowWord, h j (by omega) (by omega), h (j + 1) (by omega) (by omega), h (j + 2) (by omega) (by omega),
    h (j + 3) (by omega) (by omega)]

section
variable {n m j : Nat} {buf : Vector Byte n} (hblank : ∀ i, byteAt buf i = if i < m then 0x20#8 else 0x00#8)
include hblank

theorem windowWord_within_spaces (hj : j + 4 ≤ m) : windowWord buf j = 0x20202020#32 :=
  windowWord_of_bytes_eq fun i _ hi => (hblank i).trans (if_pos (by omega))

theorem windowWord_past_spaces (hj : m ≤ j) : windowWord buf j = 0x00000000#32 :=
  windowWord_of_bytes_eq fun i hi _ => (hblank i).trans (if_neg (by omega))

end

/-- Words 0 to 15 of a window on a blank RT buffer. -/
theorem windowWord_blankBuf {base k : Nat} (hk : k < 16) :
    windowWord RtGroup.blankBuf (base + 4 * k - base) = 0x20202020#32 :=
  windowWord_within_spaces byteAt_blankBuf (by omega)

/-! The obligations. -/

/-- Settles O12: the step takes the event from the queue and puts the whole RGD at its reset value. -/
theorem hardwareResetSetsEveryElement : Obligations.HardwareResetSetsEveryElement := by
  unfold Obligations.HardwareResetSetsEveryElement
  intro s rest hp
  exact ⟨_, step_of_hwReset hp, reset_initialRecordHolds, rfl, rfl, rfl, rfl, rfl, rfl, rfl, rfl, rfl, rfl⟩

/-- Settles O13: the record by its groups, each other register by its value. -/
theorem resetStateHasTheResetValues : Obligations.ResetStateHasTheResetValues := by
  unfold Obligations.ResetStateHasTheResetValues
  exact ⟨reset_initialRecordHolds, rfl, rfl, rfl, rfl, rfl, rfl, rfl, rfl, rfl⟩

/-- Settles O14, row for row in the table's order: a register's word is its reset value; a window's words lie within the
spaces of its buffer, or start at its terminator. -/
theorem readsAfterReset : Obligations.ReadsAfterReset := by
  unfold Obligations.ReadsAfterReset
  rintro ⟨_, _⟩ i v rfl hrow
  simp only [List.mem_append, List.mem_map, List.mem_range, List.mem_cons, List.not_mem_nil, or_false,
    Prod.mk.injEq] at hrow
  rcases hrow with (hrow | ⟨k, hk, rfl, rfl⟩) | ⟨k, hk, rfl, rfl⟩
  · rcases hrow with ⟨rfl, rfl⟩ | ⟨rfl, rfl⟩ | ⟨rfl, rfl⟩ | ⟨rfl, rfl⟩ | ⟨rfl, rfl⟩ | ⟨rfl, rfl⟩ | ⟨rfl, rfl⟩ |
      ⟨rfl, rfl⟩ | ⟨rfl, rfl⟩ | ⟨rfl, rfl⟩ | ⟨rfl, rfl⟩ | ⟨rfl, rfl⟩ | ⟨rfl, rfl⟩ | ⟨rfl, rfl⟩ | ⟨rfl, rfl⟩ |
      ⟨rfl, rfl⟩ | ⟨rfl, rfl⟩ | ⟨rfl, rfl⟩ | ⟨rfl, rfl⟩ | ⟨rfl, rfl⟩ | ⟨rfl, rfl⟩
    exacts [rfl, rfl, rfl, rfl, rfl, rfl, rfl, rfl, rfl, rfl, next_answer_congr _ reset_piStatWord, rfl, rfl,
      next_answer_congr _ reset_rtStatWord, next_answer_congr _ reset_ctStatWord, rfl,
      next_answer_congr _ (windowWord_within_spaces byteAt_initial_ps_buf (by decide)),
      next_answer_congr _ (windowWord_within_spaces byteAt_initial_ps_buf (by decide)),
      next_answer_congr _ (windowWord_past_spaces byteAt_initial_ps_buf (by decide)),
      next_answer_congr _ (windowWord_past_spaces byteAt_blankBuf (by decide)),
      next_answer_congr _ (windowWord_past_spaces byteAt_blankBuf (by decide))]
  · exact next_answer_congr _ (windowWord_blankBuf hk)
  · exact next_answer_congr _ (windowWord_blankBuf hk)

/-- Settles O55: the reset record is the initial record. -/
theorem resetMeetsTheInvariants : Obligations.ResetMeetsTheInvariants := by
  unfold Obligations.ResetMeetsTheInvariants
  exact inv_of_initialRecordHolds reset_initialRecordHolds rfl

end Sys2Proof.Machine
end
